-- ==== Sys2Proof/Word.lean ====
section
/-! DEFINITION. The words of the SC64: identifiers, positions and arms (spec 00, Conventions and Identifiers). -/

namespace Sys2Proof

/-- One byte of the host link. -/
abbrev Byte := BitVec 8

/-- Card ID: a 64-bit number. -/
abbrev CardId := BitVec 64

/-- Bike ID: a 32-bit number. -/
abbrev BikeId := BitVec 32

/-- Node serial: a 32-bit number. -/
abbrev Serial := BitVec 32

/-- Van ID: a 32-bit number (R133). -/
abbrev VanId := BitVec 32

/-- A scheme minute: an unsigned count of minutes (spec 00, Scheme time). -/
abbrev Minute := Nat

/-- An amount of money in fare units; none is negative (spec 00, Money). -/
abbrev Money := Nat

/-- The four arms A, B, C, D as 0 to 3 (R207). -/
abbrev Arm := Fin 4

/-- The 64 positions by their index in position order: A01 is 0, D16 is 63 (spec 00, Positions; R207). -/
abbrev Pos := Fin 64

/-- Plan class, 0 to 7. -/
abbrev PlanClass := Fin 8

end Sys2Proof
end

