-- ==== Sys2Proof/Syntax.lean ====
section
/-! DEFINITION. The commands of the SC64: one constructor of `Instr` for each row of spec/opcode_table.json, and the
data the commands carry (tag records R27, node events R33–R37 and R43, answers R4, R12, R39).
Operands of requests are numbers as the frame carries them, so that a value out of its range can be refused RANGE;
operands of events are typed. -/

namespace Sys2Proof

/-- Bike kind (R27). -/
inductive BikeKind where
  | pedal
  | ebike
deriving DecidableEq, Repr

/-- Node kind (R3, R25). -/
inductive NodeKind where
  | dock
  | kiosk
deriving DecidableEq, Repr

/-- The stamp of a hire (R27, R72). The origin position is the byte as it stands on the tag (R208). -/
structure Stamp where
  card : CardId
  start : Minute
  originStation : Nat
  originPos : Nat
  plan : PlanClass
  revision : Nat
  pass : Bool
deriving DecidableEq, Repr

/-- Stamp state with what each state carries (R27). -/
inductive TagStamp where
  | none
  | opened (stamp : Stamp)
  | closed (stamp : Stamp) (closeMinute : Minute)
deriving DecidableEq, Repr

/-- The fault mark of a tag (R27). -/
structure FaultMark where
  minute : Minute
  station : Nat
deriving DecidableEq, Repr

/-- A bike tag record that was read (R27). -/
structure Tag where
  bike : BikeId
  kind : BikeKind
  stamp : TagStamp
  mark : Option FaultMark
deriving DecidableEq, Repr

/-- A bike snapshot: read result UNREAD with no other field, or READ with the record (R27). -/
inductive Snapshot where
  | unread
  | read (tag : Tag)
deriving DecidableEq, Repr

/-- Lamp settings (R32). -/
inductive Lamp where
  | on
  | dim
  | off
deriving DecidableEq, Repr

/-- A switch's position (R3, R4). -/
inductive Switch where
  | opened
  | closed
deriving DecidableEq, Repr

/-- A sense reading, of the root or of a node's downstream switch (R2, R4). -/
inductive Sense where
  | noLoad
  | load
  | overcurrent
deriving DecidableEq, Repr

/-- The events a node reports in its poll answers (R33–R37, R43). -/
inductive NodeEvent where
  | bikeIn (snapshot : Snapshot)
  | taken
  | relatched (snapshot : Snapshot)
  | tap (card : CardId)
  | button
  | latchJam
  | readerFault
  | tagFail
  | passHeld (card : CardId) (plan : PlanClass) (hold : Money) (validity : Nat) (session : Nat)
deriving DecidableEq, Repr

/-- A node's answer to a poll (R14): its number, its pending events in order, the overrun indication. -/
structure PollAnswer where
  number : Byte
  events : List NodeEvent
  overrun : Bool
deriving DecidableEq, Repr

/-- The answers to commands (R29–R32, R43). -/
inductive CommandAnswer where
  | accepted
  | tagFail
  | jammed
  | done
  | noMatch
deriving DecidableEq, Repr

/-- Latch activity in an IDENTIFY answer (R39). -/
inductive Activity where
  | idle
  | window
deriving DecidableEq, Repr

/-- What the node of each kind adds to its IDENTIFY answer (R4, R39). -/
inductive NodeReport where
  | dock (activity : Activity) (snapshot : Option Snapshot)
  | kiosk
deriving DecidableEq, Repr

/-- The answer to IDENTIFY (R4, R39). -/
structure IdentifyAnswer where
  serial : Serial
  switch : Switch
  lamp : Lamp
  report : NodeReport
deriving DecidableEq, Repr

/-- The answers to PASS POWER (R4). -/
inductive PassPowerResult where
  | closed
  | tripped
deriving DecidableEq, Repr

/-- The answers to OPEN SWITCH (R4). -/
inductive OpenSwitchResult where
  | opened
  | stuck
deriving DecidableEq, Repr

/-- Card roles (R49). -/
inductive Role where
  | member
  | pass
  | crew
deriving DecidableEq, Repr

/-- Card status (R49). -/
inductive CardStatus where
  | good
  | blocked
deriving DecidableEq, Repr

/-- The fields of CARD PUT (R50). -/
structure CardPut where
  card : CardId
  role : Role
  plan : Nat
  allowance : Nat
  status : CardStatus
  expiry : Option Minute
  outCount : Option Nat
  holdIssued : Option Money
  holdRemaining : Option Money
deriving DecidableEq, Repr

/-- The nine fields of TARIFF STAGE (R97): the plan class and the eight fields of a plan record (R95). -/
structure PlanFields where
  F : Nat
  B : Nat
  P : Money
  E : Money
  C : Money
  K : Money
  W : Nat
  M : Money
deriving DecidableEq, Repr

/-- One kind named by CLEAR ATTENTION (R204): the kind's number (log 33) and, for an event kind, the raise count. -/
structure ClearItem where
  kind : Nat
  count : Nat
deriving DecidableEq, Repr

/-- The commands, one constructor per row of spec/opcode_table.json. -/
inductive Instr where
  -- requests, in the order of the table of section 10.5
  | status
  | clearAttention (items : List ClearItem)
  | setTime (minute second : Nat) (force : Bool)
  | readTime
  | stationSetup (station slotMs : Nat)
  | startOrder (arms : List Nat)
  | quietOn
  | quietOff
  | armServiceEnter (arm : Nat)
  | armServiceLeave (arm : Nat)
  | restart
  | coldClear
  | armConfigure (arm expected : Nat) (nightOff holdoverKeep service : Bool)
  | armDiscover (arm : Nat)
  | armOff (arm : Nat)
  | showAll (code : Nat)
  | dockRead (pos : Nat)
  | cardPut (fields : CardPut)
  | cardDrop (card : CardId)
  | cardRead (card : CardId)
  | cardPage (page : Nat)
  | cardUnknown (card : CardId)
  | queryRead
  | dockResolveTaken (pos : Nat)
  | dockResolveKept (pos : Nat)
  | dockResolveGone (pos : Nat) (bike : BikeId)
  | dockResolveVacate (pos : Nat)
  | remoteRelease (tag : Byte) (pos : Nat) (card : CardId)
  | remoteRead
  | hireSettings (take settlement query : Nat)
  | tariffStage (plan : Nat) (fields : PlanFields)
  | tariffCommit (revision : Nat)
  | tariffRead (generation : Nat)
  | journalRead (start count : Nat)
  | journalRelease (through : Nat)
  | bandSet (low target high : Nat)
  | fillRead
  | vanOpen (van : VanId) (card : CardId) (window : Nat)
  | vanClose
  | vanRead
  | faultAck (number : Nat)
  | faultClear (number : Nat)
  | faultRead (place count : Nat)
  | presetSetValue (preset value : Nat)
  | presetSetAssign (pos index : Nat)
  | counterRead (arm : Nat)
  | counterReset (pos : Nat)
  -- host link
  | hostFrame (bytes : List Byte)
  | frameGap
  | replySent
  -- lines
  | mainsOkTrue
  | mainsOkFalse
  | battLowTrue
  | battLowFalse
  | serviceLineAsserted
  | serviceLineReleased
  | sequenceStep
  | resetPin
  | powerApplied (batteryFlat : Bool)
  | clockTick
  -- rack links and timers
  | pollAnswer (arm : Arm) (answer : PollAnswer)
  | commandAnswer (arm : Arm) (answer : CommandAnswer)
  | discoveryIdentifyAnswer (arm : Arm) (answer : IdentifyAnswer)
  | recoveryProbeAnswer (arm : Arm) (answer : IdentifyAnswer)
  | passPowerAnswer (arm : Arm) (answer : PassPowerResult)
  | switchReportAnswer (arm : Arm) (switch : Switch) (sense : Sense)
  | openSwitchAnswer (arm : Arm) (answer : OpenSwitchResult)
  | answerTimeout (arm : Arm)
  | identifyTimeout (arm : Arm)
  | recoveryTimer (pos : Pos)
  | slotExpiry (arm : Arm)
  | rootSenseReading (arm : Arm) (sense : Sense)
  | queryTimeout (card : CardId)
  | settlementWindowExpiry (pos : Pos)
  | vanWindowExpiry
  | startupLineRead (mainsOk battLow service : Bool)
  | powerRemoved
deriving DecidableEq, Repr

end Sys2Proof
end

