-- ==== Sys2Proof/Decode.lean ====
section
/-! DEFINITION. Decoding of words. spec/opcode_table.json gives no row any bits (98_reader: "n_rows_with_fixed": 0),
so no word spells a command. The frames of the host link, which do spell requests (R207), are decoded by HOST_FRAME in
Machine/Frames.lean. -/

namespace Sys2Proof

/-- The command a word spells by the table's bits: none, for the table gives no bits. -/
def decodeTableWord (_nbits _w : Nat) : Option Instr := none

end Sys2Proof
end

