-- ==== Sys2Proof/Config.lean ====
section
/-! DEFINITION. What the part fixes (spec 00, Principal figures) and the one value the spec leaves open. -/

namespace Sys2Proof.Config

/-- The last scheme minute and the last journal sequence number, 4,294,967,295. -/
def maxU32 : Nat := 4294967295

/-- Command queue per arm: 16 entries (R11). -/
def queueSize : Nat := 16

/-- Misses to LOST (R15). -/
def missesToLost : Nat := 3

/-- IDENTIFY tries of a discovery probe (R6) and of a localization (R17). -/
def identifyTries : Nat := 3

/-- Kiosks enabled at a station (R23). -/
def enabledKiosks : Nat := 4

/-- Card list: 4096 records (R48). -/
def cardListSize : Nat := 4096

/-- Records on one page of the card list (R54). -/
def pageSize : Nat := 32

/-- Query table: 8 entries (R56). -/
def queryTableSize : Nat := 8

/-- Remote table: 8 entries (R81). -/
def remoteTableSize : Nat := 8

/-- Closing list: 64 entries (R90). -/
def closingListSize : Nat := 64

/-- Tries of a stamp close before it is STOPPED (R91). -/
def closeTries : Nat := 3

/-- Deferred moves of one position: 4 (R38). -/
def deferredMoves : Nat := 4

/-- Journal: 512 record slots (R113). -/
def journalSize : Nat := 512

/-- The unclaimed room a start-class record asks for: one slot above the reserve of 32 (R117, R118). -/
def startClassRoom : Nat := 33

/-- JOURNAL LOW holds below this many free slots (R125). -/
def journalLowMark : Nat := 64

/-- Ordinary fault records: 95 of the 96 places (R158). -/
def ordinaryFaults : Nat := 95

/-- The span of three DOCK REPORTED reports that bars a dock, minutes (R161). -/
def reportSpan : Nat := 1440

/-- Live records at a dock that bar it (R163). -/
def threeRecords : Nat := 3

/-- Latch cycle counter ceiling (R173). -/
def counterCeiling : Nat := 999999

/-- Hire duration limit in minutes (R103). -/
def hireLimit : Nat := 43200

/-- Minutes of a day (R104). -/
def day : Nat := 1440

/-- Fare ceiling in fare units (R107). -/
def fareCeiling : Nat := 1000000

/-- Backward step of SET TIME without force, seconds (R189). -/
def backwardStep : Nat := 120

/-- Host link body limit in bytes (R195). -/
def maxBody : Nat := 240

/-- The sync byte of a host link frame (R207). -/
def sync : Byte := 0xA5#8

/-- FREE VALUE (log 35): the bytes sent for a reply of this kind and tag whose body is longer than the 240 bytes
a frame may hold (R195). R54 and R172 give such replies their content and no rule gives them a frame. -/
opaque longReplyFrame (kind tag : Byte) (body : List Byte) : List Byte

end Sys2Proof.Config
end

