-- ==== Sys2Proof/Machine/State.lean ====
section
/-! DEFINITION. The state of the SC64 as plain data: every register, list, queue, counter, mode and pin the spec gives
the part, and its value right after a cold reset. `Setup` holds the settings that the blocks only read while they work
(tariffs, band, arm configuration, hire settings, presets, identity and pacing); `Live` holds everything else. -/

namespace Sys2Proof.Machine

/-! ## Vocabulary -/

/-- Link states (R3). -/
inductive LinkState where
  | absent | probing | ready | silent | lost | dark
deriving DecidableEq, Repr

/-- Latch states (section 2.3). -/
inductive Latch where
  | empty | held | unlatching | opened | uncertain
deriving DecidableEq, Repr

/-- Reservations (R25). -/
inductive Reservation where
  | none | vanPickup | vanDrop
deriving DecidableEq, Repr

/-- Display codes, in the order of the table of R207. -/
inductive DisplayCode where
  | ready | released | stationClosed | dockOutOfService | noBike | bikeReserved | bikeFaulty | cardUnknown
  | cardBlocked | cardExpired | limitReached | lowBalance | stationBusy | wait | returnOk | reportTaken | crewOk
deriving DecidableEq, Repr

/-- The two sorts of display code (R44). -/
inductive CodeSort where
  | resting | message
deriving DecidableEq, Repr

/-- Fill states (R131). -/
inductive FillState where
  | deficit | balanced | surplus
deriving DecidableEq, Repr

/-- What a journal record or a fault record is about (R114, R156). -/
inductive Subject where
  | position (p : Pos)
  | bike (b : BikeId)
  | card (c : CardId)
  | arm (a : Arm)
  | station
deriving DecidableEq, Repr

/-- Fault kinds, in the order of the table of section 8.2. -/
inductive FaultKind where
  | latchJam | tagFault | readerFault | dockReported | bikeReported | nodeLost | nodeDead | lineOpen | lineShort
  | switchStuck | armShortfall | armFailed | serviceDue | kioskExcess | clock | listFull
deriving DecidableEq, Repr

/-- The kind's own field of a fault record (section 8.2, column Detail). -/
inductive FaultDetail where
  | none
  | bikeReport (pos : Pos) (inWindow : Bool)
  | positionsFound (n : Nat)
  | failedArm (a : Arm)
  | serviceDue (count preset : Nat)
  | clockAt (pos : Pos)
  | lastLost (kind : FaultKind) (subject : Subject)
deriving DecidableEq, Repr

/-- Fault record states (R156). -/
inductive FaultState where
  | opened | acked | cleared
deriving DecidableEq, Repr

/-- Journal writes a fault record waits for (R156, R170). -/
inductive JournalPending where
  | none | opened | cleared | both
deriving DecidableEq, Repr

/-- Means of clearing (R156). -/
inductive Means where
  | host | crew (card : CardId) | recovery | collected | vacate
deriving DecidableEq, Repr

/-- Reasons of a BIKE MOVE record (R115). -/
inductive MoveReason where
  | vanPickup | vanDrop | crewRemoval | unexplained | unaccounted
deriving DecidableEq, Repr

/-- Reasons of a PASS CLOSED record (R67). -/
inductive ClosureReason where
  | expired | dropped
deriving DecidableEq, Repr

/-- Close reasons of a van visit (R151). -/
inductive CloseReason where
  | complete | closed | expired | power | restart
deriving DecidableEq, Repr

/-- What a PASS ANSWER carries (R43, R63): PASS OK or one refusal reason. -/
inductive PassReply where
  | passOk | stationClosed | stationBusy | cardListFull | duplicate | kioskExcess
deriving DecidableEq, Repr

/-! ## Setup -/

/-- A tariff generation (R96): a revision and eight plan records in plan class order. -/
structure Generation where
  revision : Nat
  plans : Vector PlanFields 8
deriving DecidableEq, Repr

/-- The configuration record of an arm (R1). -/
structure ArmConfig where
  expected : Nat
  nightOff : Bool
  holdoverKeep : Bool
  service : Bool
deriving DecidableEq, Repr

/-- The settings of the station. No block changes one of them while it handles an event: they change at the requests
that set them and at a start-up. -/
structure Setup where
  /-- current, previous and staging generations and the edited flag (R96) -/
  current : Generation
  previous : Generation
  staging : Generation
  edited : Bool
  /-- the band (R130) -/
  low : Nat
  target : Nat
  high : Nat
  /-- station number, none while unset (R190) -/
  station : Option Nat
  /-- slot length in ms (R182) -/
  slotMs : Nat
  /-- arm configuration records (R1) -/
  arms : Vector ArmConfig 4
  /-- start order (R182) -/
  startOrder : List Arm
  /-- hire settings in seconds (R93) -/
  takeWindow : Nat
  settleWindow : Nat
  queryTimeout : Nat
  /-- presets 1 to 4, none while unset (R174) -/
  presets : Vector (Option Nat) 4
  /-- preset index of each position, 0 to 4 (R174) -/
  presetIndex : Vector (Fin 5) 64
deriving DecidableEq, Repr

/-! ## Rack links -/

/-- Arm states (R2). -/
inductive ArmState where
  | off | starting | running | service | stopping | failed
deriving DecidableEq, Repr

/-- Node commands with their parameters (R29–R32, R43). CLOSE STAMP carries a close minute in its closing form. -/
inductive NodeCommand where
  | unlatch (stamp : Option Stamp) (window : Nat)
  | closeStamp (bike : BikeId) (start : Minute) (close : Option Minute)
  | markFault (bike : BikeId) (minute : Minute) (station : Nat)
  | lamp (setting : Lamp)
  | passAnswer (card : CardId) (answer : PassReply)
deriving DecidableEq, Repr

/-- The issuing jobs of commands (R11). -/
inductive Issuer where
  | hireEngine | fillUnit | faultUnit | dockTable | cardUnit
deriving DecidableEq, Repr

/-- An entry of a command queue (R11). -/
structure QueueEntry where
  pos : Pos
  command : NodeCommand
  issuer : Issuer
deriving DecidableEq, Repr

/-- A sent command with its command number (R12). -/
structure SentCommand where
  entry : QueueEntry
  number : Byte
deriving DecidableEq, Repr

/-- The transaction in progress on an arm (R10). A poll carries the display code taken out of the record, with the
resting code that code had replaced (R13, R45). -/
inductive Txn where
  | probe (k : Nat)
  | locProbe (k : Nat)
  | recovery (k : Nat)
  | passPower (k : Nat)
  | report (k : Nat)
  | openSwitch (k : Nat)
  | command (sent : SentCommand)
  /-- a poll with the display code it carries, the resting code that this message replaced (R45), and the number of the
  last answer taken from the node, which the poll acknowledges (R14) -/
  | poll (k : Nat) (code : Option (DisplayCode × CodeSort)) (replaced : Option DisplayCode) (acks : Option Byte)
deriving DecidableEq, Repr

/-- Kinds of discovery (R5). -/
inductive DiscoveryKind where
  | full | extended
deriving DecidableEq, Repr

/-- Line work in progress on an arm; k, j and t are position numbers 1 to 16 along it (R5–R7, R17, R18). -/
inductive Work where
  | none
  /-- the walk waits one slot after the feeding switch of k was closed (R5) -/
  | waitSlot (k : Nat)
  /-- the walk has PASS POWER for k−1 to send (R5) -/
  | feed (k : Nat)
  /-- the walk probes k, with so many tries unanswered (R6) -/
  | probe (k : Nat) (tries : Nat)
  /-- the walk ended at k and diagnoses at k−1 (R7) -/
  | diagnose (k : Nat)
  /-- the walk ended at 1 and awaits the root sense (R7) -/
  | diagnoseRoot
  /-- localization, SWITCH REPORT at j (R17) -/
  | locate (j : Nat)
  /-- localization at the root, awaiting its sense (R17) -/
  | locateRoot
  /-- localization, IDENTIFY tries at j+1 (R17) -/
  | locateProbe (j : Nat) (tries : Nat)
  /-- isolation with its target at t, in a discovery or, where the flag is set, in a localization (R18) -/
  | isolate (t : Nat) (localization : Bool)
deriving DecidableEq, Repr

/-- The record a rack link controller keeps of its arm (R2, R5, R10–R13, R17–R21). -/
structure ArmRec where
  state : ArmState
  rootClosed : Bool
  queue : List QueueEntry
  txn : Option Txn
  resend : Option SentCommand
  nextNumber : Byte
  pollPointer : Option Nat
  discovery : Option DiscoveryKind
  work : Work
  /-- recovered nodes whose PASS POWER is due (R16) -/
  repower : List Nat
  /-- an arm stop waits for the transaction in progress to end (R21) -/
  stopWaits : Bool
  /-- the root opening in progress began as a second line fault (R20) -/
  secondFault : Bool
deriving DecidableEq, Repr

/-- The recovery timer of a position (R3, R15, R16). -/
inductive Recovery where
  | idle | running | due
deriving DecidableEq, Repr

/-- What the controller keeps of a position (R3, R14). -/
structure LinkRec where
  misses : Nat
  switch : Switch
  recovery : Recovery
  lastAnswer : Option Byte
deriving DecidableEq, Repr

/-! ## Dock table -/

/-- The fare unit's flags (R108) in the order of their table. -/
structure FareFlags where
  clock : Bool
  overlong : Bool
  ceiling : Bool
  fallback : Bool
  eligible : Bool
  waived : Bool
  holdRemote : Bool
  late : Bool
deriving DecidableEq, Repr

/-- The fare unit's answer (R101). -/
structure Fare where
  gross : Money
  credit : Money
  net : Money
  duration : Nat
  revision : Nat
deriving DecidableEq, Repr

/-- Settlement kinds (R110). -/
inductive SettleKind where
  | account | hold
deriving DecidableEq, Repr

/-- The settlement of a slot (R86, R110). -/
structure Settlement where
  kind : SettleKind
  charged : Money
  shortfall : Money
  finalNet : Money
deriving DecidableEq, Repr

/-- Window states of a settlement slot, with the deferral cause (R86). -/
inductive WindowState where
  | running | reported | expired | deferredList | deferredJournal
deriving DecidableEq, Repr

/-- A minute given to a journal record at its first asking, with the time unset flag (R114). -/
structure Stamped where
  minute : Minute
  unset : Bool
deriving DecidableEq, Repr

/-- A settlement slot (R86). -/
structure Slot where
  bike : BikeId
  kind : BikeKind
  stamp : Stamp
  endMinute : Option Minute
  fill : FillState
  fare : Option Fare
  flags : FareFlags
  window : WindowState
  secondsLeft : Nat
  settlement : Option Settlement
  /-- the slot holds a reserved entry of the closing list (R88, R90) -/
  reserved : Bool
  /-- the minute of the HIRE END first asked for (R114) -/
  asked : Option Stamped
deriving DecidableEq, Repr

/-- A deferred BIKE MOVE record (R38). -/
structure Move where
  reason : MoveReason
  bike : Option BikeId
  at_ : Stamped
  merged : Nat
deriving DecidableEq, Repr

/-- A dock record (R25). The bar flag is read from the fault list (R162). -/
structure DockRec where
  kind : Option NodeKind
  serial : Option Serial
  link : LinkState
  latch : Option Latch
  snapshot : Option Snapshot
  reservation : Reservation
  slot : Option Slot
  code : Option (DisplayCode × CodeSort)
  lamp : Option Lamp
  lastBikeIn : Option Minute
  moves : List Move
  /-- the resting code last placed for the position (R45) -/
  lastResting : Option DisplayCode
  /-- the pending resting code that the pending message replaced (R45) -/
  replaced : Option DisplayCode
deriving DecidableEq, Repr

/-! ## Cards and queries -/

/-- Where a card record comes from: LINK, or KIOSK with the issuing kiosk and its session number (R49). -/
inductive CardSource where
  | link
  | kiosk (pos : Pos) (session : Nat)
deriving DecidableEq, Repr

/-- A closure that waits for the journal, which is the closure pending flag set (R67). -/
structure Closure where
  reason : ClosureReason
  asked : Stamped
deriving DecidableEq, Repr

/-- A card record (R49). Hold fields have meaning for role PASS. -/
structure CardRec where
  card : CardId
  role : Role
  plan : PlanClass
  allowance : Nat
  outCount : Nat
  status : CardStatus
  expiry : Option Minute
  holdIssued : Money
  holdRemaining : Money
  source : CardSource
  closure : Option Closure
deriving DecidableEq, Repr

/-- A query table entry (R56). -/
structure QueryRec where
  card : CardId
  pos : Pos
  minute : Minute
  second : Nat
  secondsLeft : Nat
deriving DecidableEq, Repr

/-! ## Hire engine -/

/-- A release record (R73). -/
structure Release where
  pos : Pos
  stamp : Stamp
  remote : Bool
  bike : BikeId
  kind : BikeKind
deriving DecidableEq, Repr

/-- Results of an ended remote release (R82). -/
inductive RemoteResult where
  | done (late : Bool)
  | notTaken
  | refused (code : DisplayCode)
deriving DecidableEq, Repr

/-- An entry of the remote table (R81, R82); it is PENDING while it has no result. -/
structure RemoteRec where
  tag : Byte
  pos : Pos
  card : CardId
  accepted : Minute
  ended : Option (RemoteResult × Minute)
deriving DecidableEq, Repr

/-- States of a closing list entry (R90). -/
inductive ClosingState where
  | sending | stopped | away
deriving DecidableEq, Repr

/-- A closing list entry (R90): CLOSING with a close minute, CLEARING with none. -/
structure ClosingRec where
  bike : BikeId
  start : Minute
  close : Option Minute
  tries : Nat
  state : ClosingState
  /-- the offer was refused QUEUE FULL and is made again after this position's next answered poll (R91) -/
  retry : Option Pos
deriving DecidableEq, Repr

/-! ## Journal -/

/-- Record kinds with their bodies (R115, R88, R171). -/
inductive JournalBody where
  | hireStart (stamp : Stamp) (bike : BikeId) (kind : BikeKind) (pos : Pos) (late : Bool)
  | passIssued (plan : PlanClass) (hold : Money) (expiry : Minute) (pos : Pos) (session : Nat)
  | vanOpened (van : VanId) (card : CardId) (window pickups drops collections : Nat)
  | hireEnd (slot : Slot) (pos : Pos)
  | passClosed (issued remaining : Money) (reason : ClosureReason) (source : CardSource)
  | vanVisit (van : VanId) (planned done : Nat × Nat × Nat) (reason : CloseReason)
  | bikeMove (reason : MoveReason) (bike : Option BikeId) (merged : Nat)
  | faultOpened (number : Nat) (kind : FaultKind) (barring : Bool) (detail : FaultDetail)
  | faultCleared (number : Nat) (kind : FaultKind) (repeats : Nat) (opening lastSeen : Minute) (barring : Bool)
      (means : Means)
deriving DecidableEq, Repr

/-- A journal record (R114). -/
structure JournalRec where
  seq : Nat
  at_ : Stamped
  subject : Subject
  body : JournalBody
deriving DecidableEq, Repr

/-- The journal (R113, R116): its ring oldest first, the last issued number, the claims outstanding. -/
structure Journal where
  ring : List JournalRec
  lastIssued : Nat
  claims : Nat
deriving DecidableEq, Repr

/-! ## Fill and van unit -/

/-- The seven fill counts (R128). -/
structure FillCounts where
  usable : Nat
  hireable : Nat
  free : Nat
  reservedDocks : Nat
  reservedBikes : Nat
  other : Nat
  faulty : Nat
deriving DecidableEq, Repr

/-- Van visit states (R133). -/
inductive VisitState where
  | none | opened | working | closed
deriving DecidableEq, Repr

/-- What a visit holds from VAN OPEN on (R133). -/
structure VisitRec where
  van : VanId
  card : CardId
  opening : Minute
  window : Nat
  secondsLeft : Nat
  pickupsPlanned : Nat
  dropsPlanned : Nat
  collectionsPlanned : Nat
  pickupsDone : Nat
  dropsDone : Nat
  collectionsDone : Nat
  /-- close reason and minute, while CLOSED; the time unset flag is the summary's (R114, R152) -/
  close : Option (CloseReason × Stamped)
  summaryPending : Bool
deriving DecidableEq, Repr

/-- The van visit record (R133). -/
structure Visit where
  state : VisitState
  data : Option VisitRec
deriving DecidableEq, Repr

/-- Purposes of a crew action (R139). -/
inductive Purpose where
  | pickup | collection
deriving DecidableEq, Repr

/-- A crew action (R139). The bike is the snapshot's, none where its read result is UNREAD. -/
structure CrewAction where
  pos : Pos
  purpose : Purpose
  bike : Option BikeId
  card : CardId
  counted : Bool
deriving DecidableEq, Repr

/-! ## Fault list -/

/-- A fault record (R156). -/
structure FaultRec where
  number : Nat
  kind : FaultKind
  subject : Subject
  state : FaultState
  opening : Stamped
  lastSeen : Minute
  repeats : Nat
  reports : List Minute
  barring : Bool
  detail : FaultDetail
  pending : JournalPending
  /-- means, minute and the barring flag as it stood before the clearing, while CLEARED (R169, R171) -/
  clearing : Option (Means × Stamped × Bool)
  /-- the barring flag at the opening, which FAULT OPENED carries (R171) -/
  barringAtOpening : Bool
deriving DecidableEq, Repr

/-! ## Power and clock -/

/-- Power states (R177). -/
inductive PowerState where
  | run | quiet | holdover | off
deriving DecidableEq, Repr

/-- Actions of an arm sequence (R184). -/
inductive StepAction where
  | stop | start
deriving DecidableEq, Repr

/-- The power sequencer's working state (R177, R178, R182–R187). -/
structure Power where
  state : PowerState
  /-- the return state is QUIET (else RUN) -/
  returnQuiet : Bool
  mainsOk : Bool
  battLow : Bool
  service : Bool
  shedSet : Vector Bool 4
  shedMark : Vector Bool 4
  request : Vector Bool 4
  sequence : List (StepAction × Arm)
  /-- the first step is a START that waits for its arm's stop to end (R185) -/
  waiting : Bool
  /-- the service membership of the arms that the latest sequence was built with (R1) -/
  members : Vector Bool 4
  /-- the arms whose latest discovery was begun by a START step of the latest sequence (R1, R185) -/
  begun : Vector Bool 4
deriving DecidableEq, Repr

/-- The scheme clock (R188). -/
structure Clock where
  minute : Minute
  second : Nat
  valid : Bool
deriving DecidableEq, Repr

/-! ## Host port -/

/-- Event kinds of the attention set, in the order of the table of R200. -/
inductive EventKind where
  | journalNew | faultNew | fillChange | vanDone | armChange | powerChange | remoteDone | restarted | coldStart
deriving DecidableEq, Repr

/-- An event kind's presence and raise count (R200). -/
structure EventFlag where
  pending : Bool
  count : Byte
deriving DecidableEq, Repr

/-- Result codes, in the order of the table of R199. -/
inductive Result where
  | done | accepted | busy | refused | range | full | notFound | unknownKind | lineOwned | crewOnly | clockStep
  | inUse | powerOff
deriving DecidableEq, Repr

/-- Reasons of REFUSED (R207). -/
inductive Reason where
  | display (code : DisplayCode)
  | armFailed | notCrew | revisionUsed | notUncertain | noStation | inConfiguration | inLink | inFlight | notTaken
deriving DecidableEq, Repr

/-- One field of a reply body: its size in bytes and its value (R207). -/
structure Fld where
  size : Nat
  value : Nat
deriving DecidableEq, Repr

/-- A reply (R198, R207): result, the reason where the result is REFUSED, the reply fields. -/
structure Reply where
  result : Result
  reason : Option Reason
  body : List Fld
deriving DecidableEq, Repr

/-- The request in hand with the reply being sent (R197). -/
structure InHand where
  kind : Byte
  tag : Byte
  reply : Reply
deriving DecidableEq, Repr

/-- The two kinds of start-up (R192). -/
inductive StartKind where
  | restart | cold
deriving DecidableEq, Repr

/-- The host port (R195, R197, R206). The receiver is hunting while the buffer is empty. -/
structure Port where
  rx : List Byte
  inHand : Option InHand
  busy : Option (Byte × Byte)
  /-- the start-up that begins when the reply in hand has been sent (R192) -/
  startAfter : Option StartKind
deriving DecidableEq, Repr

/-! ## The state -/

/-- Everything the part keeps but its settings. -/
structure Live where
  arms : Vector ArmRec 4
  links : Vector LinkRec 64
  docks : Vector DockRec 64
  cards : List CardRec
  queries : List QueryRec
  releases : List Release
  remotes : List RemoteRec
  closing : List ClosingRec
  journal : Journal
  fill : FillCounts
  fillState : FillState
  visit : Visit
  crew : List CrewAction
  faults : List FaultRec
  nextFault : Nat
  counters : Vector Nat 64
  power : Power
  clock : Clock
  attention : Vector EventFlag 9
  port : Port
  /-- a start-up in progress, waiting for its lines to be read (R193, step 3) -/
  boot : Option StartKind
  /-- the part has its supply (R202) -/
  powered : Bool
  /-- the retained store's integrity check passes (R191) -/
  storeValid : Bool
deriving DecidableEq, Repr

/-- The machine: settings, everything else, and the model's queue of commands that wait. -/
structure State where
  setup : Setup
  live : Live
  pending : List Instr
deriving DecidableEq, Repr

/-- Reasons a step stops with a fault. There are none: no rule of the spec stops the part (safe; what the manual calls
faults are fault records, which are state). -/
inductive Fault where
deriving DecidableEq, Repr

/-- Reasons a command is refused by the model. No command raises one: every row of the table has its meaning. -/
inductive Refusal where
  /-- a row that has no meaning yet, raised by exec's arm alone (safe); no arm raises it -/
  | notModelled (mnemonic : String)
deriving DecidableEq, Repr

/-! ## Cold values (R194, "Cold values of the retained store") -/

/-- The cold plan record: every field 0 but B = 1 (R96). -/
def coldPlan : PlanFields := { F := 0, B := 1, P := 0, E := 0, C := 0, K := 0, W := 0, M := 0 }

/-- The cold tariff generation: revision 0 (R96). -/
def coldGeneration : Generation := { revision := 0, plans := Vector.replicate 8 coldPlan }

/-- The cold arm configuration (R1). -/
def coldArmConfig : ArmConfig := { expected := 0, nightOff := false, holdoverKeep := false, service := false }

/-- The settings after a cold reset (R93, R96, R130, R174, R182, R190). -/
def Setup.cold : Setup :=
  { current := coldGeneration, previous := coldGeneration, staging := coldGeneration, edited := false
    low := 0, target := 0, high := 64
    station := none, slotMs := 250
    arms := Vector.replicate 4 coldArmConfig
    startOrder := [0, 1, 2, 3]
    takeWindow := 30, settleWindow := 60, queryTimeout := 3
    presets := Vector.replicate 4 none
    presetIndex := Vector.replicate 64 0 }

/-- An arm at a start-up: OFF with nothing in hand (R2, R12, R13). -/
def ArmRec.initial : ArmRec :=
  { state := .off, rootClosed := false, queue := [], txn := none, resend := none, nextNumber := 0, pollPointer := none
    discovery := none, work := .none, repower := [], stopWaits := false, secondFault := false }

/-- A position's link record at a start-up (R3). -/
def LinkRec.initial : LinkRec := { misses := 0, switch := .opened, recovery := .idle, lastAnswer := none }

/-- A dock record after a cold reset (R25). -/
def DockRec.cold : DockRec :=
  { kind := none, serial := none, link := .absent, latch := none, snapshot := none, reservation := .none, slot := none
    code := none, lamp := none, lastBikeIn := none, moves := [], lastResting := none, replaced := none }

/-- Fill counts of a table in which every position is ABSENT (R129). -/
def FillCounts.zero : FillCounts :=
  { usable := 0, hireable := 0, free := 0, reservedDocks := 0, reservedBikes := 0, other := 0, faulty := 0 }

/-- The power sequencer after step 1 of a start-up (R193). The power state, the line levels and the shed set are chosen
at step 3; the values that stand until then are DESIGN CHOICES no command reads (log 2; unsafe). -/
def Power.initial : Power :=
  { state := .run, returnQuiet := false, mainsOk := false, battLow := false, service := false
    shedSet := Vector.replicate 4 false, shedMark := Vector.replicate 4 false, request := Vector.replicate 4 false
    sequence := [], waiting := false, members := Vector.replicate 4 false, begun := Vector.replicate 4 false }

/-- The attention set that step 1 of every start-up leaves (R200). -/
def attentionEmpty : Vector EventFlag 9 := Vector.replicate 9 { pending := false, count := 0 }

/-- The host port after step 1 of a start-up (R206). -/
def Port.initial : Port := { rx := [], inHand := none, busy := none, startAfter := none }

/-- Everything but the settings, after steps 1 and 2 of a cold reset (R193, R194). -/
def Live.cold : Live :=
  { arms := Vector.replicate 4 ArmRec.initial
    links := Vector.replicate 64 LinkRec.initial
    docks := Vector.replicate 64 DockRec.cold
    cards := [], queries := [], releases := [], remotes := [], closing := []
    journal := { ring := [], lastIssued := 0, claims := 0 }
    fill := FillCounts.zero, fillState := .balanced
    visit := { state := .none, data := none }, crew := []
    faults := [], nextFault := 1
    counters := Vector.replicate 64 0
    power := Power.initial
    clock := { minute := 0, second := 0, valid := false }
    attention := attentionEmpty
    port := Port.initial
    boot := some .cold, powered := true, storeValid := true }

/-- Right after a cold reset: working state discarded, the retained store at its cold values, and the start-up waiting
for its lines to be read (R193 steps 1 to 3, R194). DEDUCED, log 1: the line levels are inputs, and STARTUP_LINE_READ
brings them. -/
def State.reset : State := { setup := Setup.cold, live := Live.cold, pending := [] }

end Sys2Proof.Machine
end

