-- ==== Sys2Proof/Machine/Operands.lean ====
section
/-! DEFINITION. Operands: positions and arms read from their bytes, clamps, and the numbering of codes (R207). -/

namespace Sys2Proof.Machine

/-- The arm an arm letter's byte names; none for a letter other than A to D. -/
def arm? (n : Nat) : Option Arm := if h : n < 4 then some ⟨n, h⟩ else none

/-- The position a position's byte names; none outside A01 to D16. -/
def pos? (n : Nat) : Option Pos := if h : n < 64 then some ⟨n, h⟩ else none

/-- The plan class a number names; none above 7. -/
def plan? (n : Nat) : Option PlanClass := if h : n < 8 then some ⟨n, h⟩ else none

/-- Brings a value outside its range to the nearest end (spec 00, "clamped"). -/
def clamp (lo hi n : Nat) : Nat := max lo (min hi n)

/-- A slot length rounded down to the nearest of 100, 250, 1,000 and 4,000 ms, at least 100 ms (R190). -/
def roundSlot (ms : Nat) : Nat :=
  if ms < 250 then 100 else if ms < 1000 then 250 else if ms < 4000 then 1000 else 4000

/-- The arm of a position. -/
def armOf (p : Pos) : Arm := ⟨p.val / 16, by omega⟩

/-- The number of a position along its arm, 1 to 16. -/
def numOf (p : Pos) : Nat := p.val % 16 + 1

/-- The position numbered k, 1 to 16, on an arm. -/
def posAt (a : Arm) (k : Nat) : Pos := ⟨a.val * 16 + (k - 1) % 16, by omega⟩

/-- All positions in position order (spec 00). -/
def allPos : List Pos := List.finRange 64

/-- The arms A to D. -/
def allArms : List Arm := [0, 1, 2, 3]

/-- The numbers 1 to 16 along an arm. -/
def allNums : List Nat := [1, 2, 3, 4, 5, 6, 7, 8, 9, 10, 11, 12, 13, 14, 15, 16]

/-- The positions of an arm in position order. -/
def armPos (a : Arm) : List Pos := allNums.map (posAt a)

/-- Display codes in the order of their numbers 1 to 17 (R207). -/
def displayCodes : List DisplayCode :=
  [.ready, .released, .stationClosed, .dockOutOfService, .noBike, .bikeReserved, .bikeFaulty, .cardUnknown,
   .cardBlocked, .cardExpired, .limitReached, .lowBalance, .stationBusy, .wait, .returnOk, .reportTaken, .crewOk]

/-- The display code a byte names; none for 0 and above 17 (R207). -/
def displayCode? (n : Nat) : Option DisplayCode := if n = 0 then none else displayCodes[n - 1]?

/-- The number of a display code (R207). -/
def DisplayCode.num (c : DisplayCode) : Nat := displayCodes.idxOf c + 1

/-- Event kinds in the order of the table of R200. -/
def eventKinds : List EventKind :=
  [.journalNew, .faultNew, .fillChange, .vanDone, .armChange, .powerChange, .remoteDone, .restarted, .coldStart]

/-- An event kind's place in the attention set. -/
def EventKind.idx : EventKind → Fin 9
  | .journalNew => 0
  | .faultNew => 1
  | .fillChange => 2
  | .vanDone => 3
  | .armChange => 4
  | .powerChange => 5
  | .remoteDone => 6
  | .restarted => 7
  | .coldStart => 8

end Sys2Proof.Machine
end

