-- ==== Sys2Proof/Machine/Flags.lean ====
section
/-! DEFINITION. The attention set: event kinds with their raise counts, condition kinds, and the ATTN output
(R200–R202, R204); journal room, which a condition kind reads (R116). -/

namespace Sys2Proof.Machine

/-- One element of a vector changed. -/
def upd {α : Type} {n : Nat} (v : Vector α n) (i : Fin n) (f : α → α) : Vector α n := v.set i.val (f v[i]) i.isLt

/-- Raising an event kind makes it present and raises its count, wrapping from 255 to 0 (R200). -/
def raise (k : EventKind) (L : Live) : Live :=
  { L with attention := upd L.attention k.idx fun e => { pending := true, count := e.count + 1 } }

/-- Records in the ring (R116). -/
def Journal.held (j : Journal) : Nat := j.ring.length

/-- Free slots (R116): the smaller of the empty slots and the sequence numbers left (R127). -/
def Journal.free (j : Journal) : Nat := min (Config.journalSize - j.held) (Config.maxU32 - j.lastIssued)

/-- Unclaimed room (R116). -/
def Journal.room (j : Journal) : Nat := j.free - j.claims

/-- The three condition kinds hold (R201): JOURNAL LOW, CARD QUERY, CLOCK NEEDED. -/
def journalLow (L : Live) : Bool := L.journal.free < Config.journalLowMark

/-- CARD QUERY holds while the query table holds an entry (R56). -/
def cardQuery (L : Live) : Bool := !L.queries.isEmpty

/-- CLOCK NEEDED holds while the clock's valid flag is clear (R188). -/
def clockNeeded (L : Live) : Bool := !L.clock.valid

/-- Presence of the condition kinds in the attention set: while they hold, from step 7 of a start-up on (R201). -/
def conditions (L : Live) : List Bool :=
  [journalLow L, cardQuery L, clockNeeded L].map fun b => b && L.boot.isNone

/-- ATTN is driven low (R202): while the set holds a kind, but not during a start-up nor while unpowered. -/
def attnLow (L : Live) : Bool :=
  L.powered && L.boot.isNone && (L.attention.toList.any (·.pending) || (conditions L).any id)

/-- A clear list of R204 that is taken: 1 to 12 kinds, each named once, each of the twelve that exist. -/
def clearListOk (items : List ClearItem) : Bool :=
  decide (1 ≤ items.length ∧ items.length ≤ 12) && items.all (fun i => i.kind < 12) &&
    decide ((items.map (·.kind)).Nodup)

/-- One kind of a clear list (R204): an event kind whose count matches is removed. A condition kind returns at once
while it holds, so nothing is stored for it (R201). -/
def clearItem (v : Vector EventFlag 9) (i : ClearItem) : Vector EventFlag 9 :=
  if h : i.kind < 9 then
    upd v ⟨i.kind, h⟩ fun e => if e.count.toNat = i.count then { e with pending := false } else e
  else v

end Sys2Proof.Machine
end

