-- ==== Sys2Proof/Machine/Ops.lean ====
section
/-! DEFINITION. Named operations over the records: dock, link and arm records, the clock, hireable and usable docks,
fill counts and their recomputation (R26, R31, R46, R128–R131). -/

namespace Sys2Proof.Machine

/-! ## Records -/

/-- The dock record of a position. -/
def Live.dock (L : Live) (p : Pos) : DockRec := L.docks[p]

/-- What the controller keeps of a position. -/
def Live.link (L : Live) (p : Pos) : LinkRec := L.links[p]

/-- The record of an arm. -/
def Live.arm (L : Live) (a : Arm) : ArmRec := L.arms[a]

/-- An arm record changed, where no fill count reads the change. -/
def updArm (a : Arm) (f : ArmRec → ArmRec) (L : Live) : Live := { L with arms := upd L.arms a f }

/-- A position's link record changed. -/
def updLink (p : Pos) (f : LinkRec → LinkRec) (L : Live) : Live := { L with links := upd L.links p f }

/-- The present minute for a journal record, with the time unset flag (R114). -/
def now (L : Live) : Stamped := { minute := L.clock.minute, unset := !L.clock.valid }

/-- The tag record of a dock's bike, where its snapshot's read result is READ. -/
def DockRec.tag (d : DockRec) : Option Tag :=
  match d.snapshot with
  | some (.read t) => some t
  | _ => none

/-- The bike of a dock's snapshot, where its read result is READ. -/
def DockRec.bike (d : DockRec) : Option BikeId := d.tag.map (·.bike)

/-- A position has a known node while it holds a kind and a serial (R3). -/
def DockRec.known (d : DockRec) : Bool := d.kind.isSome && d.serial.isSome

/-- READY or SILENT: in the poll rotation (R3). -/
def DockRec.inRotation (d : DockRec) : Bool := d.link = .ready || d.link = .silent

/-- STARTING, RUNNING or SERVICE: the states with transactions (R2). -/
def ArmState.active : ArmState → Bool
  | .starting | .running | .service => true
  | .off | .stopping | .failed => false

/-! ## Bars and fault marks -/

/-- A fault record is live while OPEN or ACKED (R156). -/
def FaultRec.live (f : FaultRec) : Bool := f.state ≠ .cleared

/-- A position is barred while the fault list holds a barring record about it (R162). -/
def barred (L : Live) (p : Pos) : Bool := L.faults.any fun f => f.barring && f.subject = .position p

/-- A live BIKE REPORTED record stands for the bike (R31, R160). -/
def reported (L : Live) (b : BikeId) : Bool :=
  L.faults.any fun f => f.kind = .bikeReported && f.subject = .bike b && f.live

/-- The bike has a fault mark (R31). -/
def marked (L : Live) (t : Tag) : Bool := t.mark.isSome || reported L t.bike

/-! ## Hireable and usable (R46, R128) -/

/-- A stamp state that is NONE or CLOSED. -/
def stampShut : TagStamp → Bool
  | .none | .closed _ _ => true
  | .opened _ => false

/-- The stamp of an OPEN tag. -/
def openStamp? : TagStamp → Option Stamp
  | .opened s => some s
  | _ => none

/-- The dock is usable (R128). -/
def usable (L : Live) (p : Pos) : Bool :=
  (L.dock p).kind = some .dock && (L.dock p).link = .ready && (L.arm (armOf p)).state = .running && !barred L p

/-- The bike at the position is hireable (R46). -/
def hireable (L : Live) (p : Pos) : Bool :=
  (L.dock p).link = .ready && (L.arm (armOf p)).state = .running && (L.dock p).latch = some .held &&
    (match (L.dock p).tag with
     | some t => stampShut t.stamp && !marked L t
     | none => false) &&
    (L.dock p).reservation = .none && (L.dock p).slot.isNone && !barred L p

/-- A free dock: usable, EMPTY, not reserved (R128). -/
def freeDock (L : Live) (p : Pos) : Bool :=
  (L.dock p).latch = some .empty && (L.dock p).reservation = .none && usable L p

/-- A dock with a faulty bike (R128). -/
def faultyDock (L : Live) (p : Pos) : Bool :=
  (L.dock p).kind = some .dock && (L.dock p).link = .ready && (L.dock p).latch = some .held &&
    (match (L.dock p).tag with
     | some t => marked L t
     | none => false)

/-- How many positions satisfy a test. -/
def countPos (f : Pos → Bool) : Nat := allPos.countP f

/-- The seven fill counts of the table as it stands (R128). -/
def countFill (L : Live) : FillCounts :=
  let usableN := countPos (usable L)
  let hireableN := countPos fun p => hireable L p && usable L p
  let freeN := countPos (freeDock L)
  let drops := countPos fun p =>
    (L.dock p).latch = some .empty && (L.dock p).reservation = .vanDrop && usable L p
  { usable := usableN
    hireable := hireableN
    free := freeN
    reservedDocks := drops
    reservedBikes := countPos fun p =>
      (L.dock p).latch = some .held && (L.dock p).reservation = .vanPickup && usable L p
    other := usableN - hireableN - freeN - drops
    faulty := countPos (faultyDock L) }

/-- The fill state the band gives for a number of hireable bikes (R131). -/
def fillStateOf (g : Setup) (hireable : Nat) : FillState :=
  if hireable < g.low then .deficit else if g.high < hireable then .surplus else .balanced

/-- The recomputation of fill counts and fill state, raising FILL CHANGE on a change of state (R26, R129, R131). -/
def refill (g : Setup) (L : Live) : Live :=
  let c := countFill L
  let L' := { L with fill := c, fillState := fillStateOf g c.hireable }
  if fillStateOf g c.hireable = L.fillState then L' else raise .fillChange L'

/-- A dock record changed, the recomputation following (R26). -/
def updDock (g : Setup) (p : Pos) (f : DockRec → DockRec) (L : Live) : Live :=
  refill g { L with docks := upd L.docks p f }

/-- A dock record changed in a part that no fill count reads (codes, lamp, moves). -/
def noteDock (p : Pos) (f : DockRec → DockRec) (L : Live) : Live := { L with docks := upd L.docks p f }

/-! ## Restricted writes -/

/-- The fault list changed, the recomputation following (R129). -/
def setFaults (g : Setup) (fs : List FaultRec) (L : Live) : Live := refill g { L with faults := fs }

/-- An arm's state changed, the recomputation following and ARM CHANGE raised (R2, R129). -/
def setArmState (g : Setup) (a : Arm) (st : ArmState) (L : Live) : Live :=
  raise .armChange (refill g (updArm a (fun r => { r with state := st }) L))

/-- Outcome of a command that goes on to the next state. -/
def goes (s : State) : Host.Outcome State Fault Refusal := .next s

end Sys2Proof.Machine
end

