-- ==== Sys2Proof/Machine/Fare.lean ====
section
/-! DEFINITION. The fare unit (chapter 5): plan ranges, generations, the stages of a fare, the settlement's figures. -/

namespace Sys2Proof.Machine

/-- Every field of a plan record within its range (R95). -/
def planOk (p : PlanFields) : Bool :=
  decide (p.F ≤ 240 ∧ 1 ≤ p.B ∧ p.B ≤ 120 ∧ p.P ≤ 5000 ∧ p.E ≤ 5000 ∧ p.C ≤ 100000 ∧ p.K ≤ 2000 ∧ p.W ≤ 60 ∧
    p.M ≤ 100000)

/-- The plan record of a class in a generation. -/
def Generation.plan (g : Generation) (c : PlanClass) : PlanFields := g.plans[c]

/-- The generation a stamp's revision is priced under, with the flag TARIFF FALLBACK (R102). -/
def pricedUnder (g : Setup) (revision : Nat) : Generation × Bool :=
  if revision = g.current.revision then (g.current, false)
  else if revision = g.previous.revision then (g.previous, false)
  else (g.current, true)

/-- The duration with the flags CLOCK and OVERLONG (R103). -/
def duration (start finish : Minute) : Nat × Bool × Bool :=
  if finish < start then (0, true, false)
  else if finish - start ≤ Config.hireLimit then (finish - start, false, false)
  else (Config.hireLimit, false, true)

/-- The unit price of one started block (R104). -/
def unitPrice (p : PlanFields) : BikeKind → Money
  | .ebike => p.P + p.E
  | .pedal => p.P

/-- A day charge capped; C = 0 means no cap (R105). -/
def capped (p : PlanFields) (x : Money) : Money := if p.C = 0 then x else min x p.C

/-- The block count of a span of m minutes: m divided by B and rounded up (R105). -/
def blocks (p : PlanFields) (m : Nat) : Nat := (m + p.B - 1) / p.B

/-- The exact gross fare of D minutes at unit price U, before the ceiling (R104–R107). -/
def grossExact (p : PlanFields) (U : Money) (D : Nat) : Money :=
  let n := D / Config.day
  let r := D - Config.day * n
  if n = 0 then capped p (blocks p (r - p.F) * U)
  else
    capped p (blocks p (Config.day - p.F) * U) + (n - 1) * capped p (blocks p Config.day * U) +
      capped p (blocks p r * U)

/-- The credit of a return (R108). -/
def creditFor (p : PlanFields) (fill : FillState) (G : Money) : Money := if fill = .deficit then min p.K G else 0

/-- No flag set. -/
def FareFlags.none : FareFlags :=
  { clock := false, overlong := false, ceiling := false, fallback := false, eligible := false, waived := false
    holdRemote := false, late := false }

/-- The fare unit's answer to a fare request (R101–R108). -/
def fareRequest (g : Setup) (s : Stamp) (kind : BikeKind) (finish : Minute) (fill : FillState) : Fare × FareFlags :=
  let gen := pricedUnder g s.revision
  let p := gen.1.plan s.plan
  let d := duration s.start finish
  let exact := grossExact p (unitPrice p kind) d.1
  let G := min exact Config.fareCeiling
  let credit := creditFor p fill G
  ({ gross := G, credit := credit, net := G - credit, duration := d.1, revision := gen.1.revision },
   { FareFlags.none with
     clock := d.2.1, overlong := d.2.2, ceiling := decide (Config.fareCeiling < exact), fallback := gen.2
     eligible := decide (d.1 ≤ p.W) })

/-- The final net of a slot and whether it is waived (R109). -/
def finalNet (s : Slot) : Money × Bool :=
  if s.window = .reported ∧ s.flags.eligible then (0, true)
  else ((match s.fare with | some f => f.net | none => 0), false)

end Sys2Proof.Machine
end

