-- ==== Sys2Proof/Machine/Journal.lean ====
section
/-! DEFINITION. The journal (chapter 6): appends, the start-class test, claims, waiting writers, moves. -/

namespace Sys2Proof.Machine

/-- An append: the record at the newest end with the next sequence number, JOURNAL NEW raised (R113, R119, R124). -/
def append (at_ : Stamped) (subject : Subject) (body : JournalBody) (L : Live) : Live :=
  raise .journalNew
    { L with journal :=
        { L.journal with
          ring := L.journal.ring ++ [{ seq := L.journal.lastIssued + 1, at_ := at_, subject := subject, body := body }]
          lastIssued := L.journal.lastIssued + 1 } }

/-- The start-class test (R117), by which claims are granted too (R118). -/
def startClassRoom (L : Live) : Bool := decide (Config.startClassRoom ≤ L.journal.room)

/-- A claim granted (R118); the caller has made the test. -/
def claim (L : Live) : Live := { L with journal := { L.journal with claims := L.journal.claims + 1 } }

/-- HIRE START in the room of its claim (R75, R118). -/
def appendClaimed (at_ : Stamped) (subject : Subject) (body : JournalBody) (L : Live) : Live :=
  append at_ subject body { L with journal := { L.journal with claims := L.journal.claims - 1 } }

/-! ## Waiting writers (R120) -/

/-- A slot DEFERRED with cause JOURNAL waits at the position (group 1). -/
def slotWaits (L : Live) (p : Pos) : Bool :=
  match (L.dock p).slot with
  | some s => s.window = .deferredJournal
  | none => false

/-- Deferred moves wait at the position (group 2). -/
def movesWait (L : Live) (p : Pos) : Bool := !(L.dock p).moves.isEmpty

/-- A fault record waits (group 3). -/
def FaultRec.waits (f : FaultRec) : Bool := f.pending ≠ .none

/-- The van visit's summary waits (group 4). -/
def summaryWaits (L : Live) : Bool :=
  match L.visit.data with
  | some v => v.summaryPending
  | none => false

/-- A pass closure waits (group 5). -/
def CardRec.closing (c : CardRec) : Bool := c.closure.isSome

/-- The five groups of waiting writers (R120). -/
inductive Writer where
  | slot (p : Pos)
  | move (p : Pos)
  | fault (number : Nat)
  | summary
  | pass (card : CardId)
deriving DecidableEq, Repr

/-- The first waiting writer in the order of R120. -/
def firstWriter (L : Live) : Option Writer :=
  match allPos.find? (slotWaits L) with
  | some p => some (.slot p)
  | none =>
    match allPos.find? (movesWait L) with
    | some p => some (.move p)
    | none =>
      match L.faults.find? FaultRec.waits with
      | some f => some (.fault f.number)
      | none =>
        if summaryWaits L then some .summary
        else
          match L.cards.find? CardRec.closing with
          | some c => some (.pass c.card)
          | none => none

/-- Room for an end-class record asked for now: unclaimed room, and no writer waits before it (R119; R193 step 6). -/
def endRoom (L : Live) : Bool := decide (0 < L.journal.room) && (firstWriter L).isNone

/-- The number of waiting writers in each group (R122; log 36 says what is counted). -/
def writerCounts (L : Live) : List Nat :=
  [countPos (slotWaits L), (allPos.map fun p => (L.dock p).moves.length).sum, L.faults.countP FaultRec.waits,
   if summaryWaits L then 1 else 0, L.cards.countP CardRec.closing]

/-! ## BIKE MOVE (R38) -/

/-- A move joins the deferred moves of its position, or is merged into the newest of four (R38). -/
def deferMove (m : Move) (ms : List Move) : List Move :=
  if ms.length < Config.deferredMoves then ms ++ [m]
  else
    match ms.getLast? with
    | some last => ms.dropLast ++ [{ last with merged := min 255 (last.merged + 1), at_ := m.at_, bike := m.bike }]
    | none => [m]

/-- The record of a move. -/
def moveRecord (p : Pos) (m : Move) (L : Live) : Live :=
  append m.at_ (.position p) (.bikeMove m.reason m.bike m.merged) L

/-- BIKE MOVE is appended end-class, deferring in the position's deferred moves (R38). -/
def bikeMove (p : Pos) (reason : MoveReason) (bike : Option BikeId) (L : Live) : Live :=
  let m : Move := { reason := reason, bike := bike, at_ := now L, merged := 0 }
  if endRoom L then moveRecord p m L else noteDock p (fun d => { d with moves := deferMove m d.moves }) L

end Sys2Proof.Machine
end

