-- ==== Sys2Proof/Machine/Cards.lean ====
section
/-! DEFINITION. The card list unit (chapter 3): the list, lookups, out counts, holds, pass closure and expiry. -/

namespace Sys2Proof.Machine

/-- The record of a card ID. -/
def findCard (cards : List CardRec) (c : CardId) : Option CardRec := cards.find? fun r => r.card = c

/-- The record of a card ID replaced in its place (R51). -/
def replaceCard (r : CardRec) (cards : List CardRec) : List CardRec :=
  cards.map fun x => if x.card = r.card then r else x

/-- A new record at the place its card ID gives it (R48). -/
def insertCard (r : CardRec) : List CardRec → List CardRec
  | [] => [r]
  | x :: xs => if r.card.toNat < x.card.toNat then r :: x :: xs else x :: insertCard r xs

/-- A record removed, closing the gap (R48). -/
def removeCard (c : CardId) (cards : List CardRec) : List CardRec := cards.filter fun r => r.card ≠ c

/-- A card is expired while the present minute is at or after its expiry minute (R49). -/
def CardRec.expired (r : CardRec) (m : Minute) : Bool :=
  match r.expiry with
  | some e => decide (e ≤ m)
  | none => false

/-- Give back: the out count falls by 1, not below 0; nothing for a card with no record (R68). -/
def giveBack (c : CardId) (L : Live) : Live :=
  { L with cards := L.cards.map fun r => if r.card = c then { r with outCount := r.outCount - 1 } else r }

/-- Take out: the out count rises by 1 where it is below the allowance (R68). -/
def takeOut? (c : CardId) (L : Live) : Option Live :=
  match findCard L.cards c with
  | some r =>
    if r.outCount < r.allowance then
      some { L with cards := replaceCard { r with outCount := r.outCount + 1 } L.cards }
    else none
  | none => none

/-- Charge an amount against the hold of a PASS (R69): the amount charged, or none where no PASS record stands. -/
def charge (c : CardId) (amount : Money) (L : Live) : Option Money × Live :=
  match findCard L.cards c with
  | some r =>
    if r.role = .pass then
      (some (min amount r.holdRemaining),
       { L with cards := replaceCard { r with holdRemaining := r.holdRemaining - min amount r.holdRemaining } L.cards })
    else (none, L)
  | none => (none, L)

/-- PASS CLOSED for a record (R67). -/
def passClosedRecord (r : CardRec) (k : Closure) (L : Live) : Live :=
  append k.asked (.card r.card) (.passClosed r.holdIssued r.holdRemaining k.reason r.source) L

/-- A pass is closed: PASS CLOSED is written and the record removed, or the closure is deferred (R67). -/
def closePass (r : CardRec) (reason : ClosureReason) (L : Live) : Live :=
  let k : Closure := { reason := reason, asked := now L }
  if endRoom L then
    let L' := passClosedRecord r k L
    { L' with cards := removeCard r.card L'.cards }
  else { L with cards := replaceCard { r with closure := some k } L.cards }

/-- A pass is awaiting settlement (R66). -/
def awaitingSettlement (L : Live) (c : CardId) : Bool :=
  allPos.any fun p =>
    match (L.dock p).slot with
    | some s => s.stamp.card = c && s.stamp.pass
    | none => false

/-- The pass check of a new minute takes this record (R66). -/
def passDue (L : Live) (r : CardRec) : Bool :=
  r.role = .pass && r.expired L.clock.minute && r.outCount = 0 && r.closure.isNone && !awaitingSettlement L r.card

/-- The pass check at a new scheme minute, while the clock is valid and the power state is not OFF (R66). A start-up
that waits for its lines has no power state yet, and the check waits for the first minute after it (R193). Several due
passes are closed in the list's order (log 60). -/
def passCheck (L : Live) : Live :=
  if L.clock.valid && L.boot.isNone && L.power.state ≠ .off then
    (L.cards.filter (passDue L)).foldl (fun M r => closePass r .expired M) L
  else L

/-- The query table's entry for a card ID (R55). -/
def findQuery (L : Live) (c : CardId) : Option QueryRec := L.queries.find? fun q => q.card = c

/-- An entry leaves the query table, the others keeping their order (R58). -/
def dropQuery (c : CardId) (L : Live) : Live := { L with queries := L.queries.filter fun q => q.card ≠ c }

/-- The entries of an arm's positions are removed without answer (R60). -/
def dropArmQueries (a : Arm) (L : Live) : Live := { L with queries := L.queries.filter fun q => armOf q.pos ≠ a }

/-- Lookup results (R55). -/
inductive Lookup where
  | found (r : CardRec)
  | wait
  | started
  | unknown
deriving DecidableEq, Repr

/-- A tap lookup, which may start a query (R55, R57). -/
def tapLookup (g : Setup) (c : CardId) (p : Pos) (L : Live) : Lookup × Live :=
  match findCard L.cards c with
  | some r => (.found r, L)
  | none =>
    if (findQuery L c).isSome then (.wait, L)
    else if L.queries.length < Config.queryTableSize then
      (.started,
       { L with queries := L.queries ++ [{ card := c, pos := p, minute := L.clock.minute, second := L.clock.second
                                           secondsLeft := g.queryTimeout }] })
    else (.unknown, L)

/-- A direct lookup (R55). -/
def directLookup (c : CardId) (L : Live) : Lookup :=
  match findCard L.cards c with
  | some r => .found r
  | none => .unknown

end Sys2Proof.Machine
end

