-- ==== Sys2Proof/Machine/Queue.lean ====
section
/-! DEFINITION. Command queues (R11): offers and withdrawals, and what an UNLATCH taken or withdrawn does to the latch
(R29). -/

namespace Sys2Proof.Machine

/-- What a job hears of its offer (R11). -/
inductive Offered where
  | taken
  | queueFull
  | nodeNotReady
deriving DecidableEq, Repr

/-- The result an offer to the position would have (R11). -/
def offerResult (L : Live) (p : Pos) : Offered :=
  let r := L.arm (armOf p)
  if Config.queueSize ≤ r.queue.length then .queueFull
  else if r.state.active && (L.dock p).inRotation then .taken
  else .nodeNotReady

/-- The command joins the newest end of its arm's queue (R11). -/
def enqueue (e : QueueEntry) (L : Live) : Live := updArm (armOf e.pos) (fun r => { r with queue := r.queue ++ [e] }) L

/-- A job offers a command (R11). -/
def offer (p : Pos) (c : NodeCommand) (i : Issuer) (L : Live) : Offered × Live :=
  match offerResult L p with
  | .taken => (.taken, enqueue { pos := p, command := c, issuer := i } L)
  | o => (o, L)

/-- The command is an UNLATCH. -/
def NodeCommand.isUnlatch : NodeCommand → Bool
  | .unlatch _ _ => true
  | _ => false

/-- The command is a LAMP. -/
def NodeCommand.isLamp : NodeCommand → Bool
  | .lamp _ => true
  | _ => false

/-- The entry is an UNLATCH for the position. -/
def QueueEntry.unlatches (p : Pos) (e : QueueEntry) : Bool := e.pos = p && e.command.isUnlatch

/-- UNLATCH offered; when it is taken the latch becomes UNLATCHING (R29). -/
def offerUnlatch (g : Setup) (p : Pos) (stamp : Option Stamp) (i : Issuer) (L : Live) : Offered × Live :=
  match offer p (.unlatch stamp g.takeWindow) i L with
  | (.taken, M) => (.taken, updDock g p (fun d => { d with latch := some .unlatching }) M)
  | o => o

/-- The UNLATCH of the position is still queued, so that its issuer may withdraw it (R11). -/
def unlatchQueued (L : Live) (p : Pos) : Bool := (L.arm (armOf p)).queue.any (QueueEntry.unlatches p)

/-- Withdrawal of a queued UNLATCH: the entry is removed and the latch returns to HELD (R11, R29). -/
def withdrawUnlatch (g : Setup) (p : Pos) (L : Live) : Live :=
  updDock g p (fun d => { d with latch := some .held })
    (updArm (armOf p) (fun r => { r with queue := r.queue.filter fun e => !e.unlatches p }) L)

/-- A LAMP for the position is queued or awaiting its answer (R32). -/
def lampPending (L : Live) (p : Pos) : Bool :=
  let r := L.arm (armOf p)
  let hit := fun e : QueueEntry => e.pos = p && e.command.isLamp
  r.queue.any hit ||
    (match r.resend with
     | some s => hit s.entry
     | none => false) ||
    (match r.txn with
     | some (.command s) => hit s.entry
     | _ => false)

end Sys2Proof.Machine
end

