-- ==== Sys2Proof/Machine/Display.lean ====
section
/-! DEFINITION. Display codes, resting codes, lamps and kiosk enablement (R23, R32, R44, R45). -/

namespace Sys2Proof.Machine

/-- A message code placed as the pending code; a resting code it replaces is remembered (R44, R45). -/
def placeMessage (p : Pos) (c : DisplayCode) (L : Live) : Live :=
  noteDock p
    (fun d =>
      { d with
        code := some (c, .message)
        replaced := match d.code with
          | some (r, .resting) => some r
          | _ => none })
    L

/-- A resting code placed as the pending code (R45). -/
def placeResting (p : Pos) (c : DisplayCode) (L : Live) : Live :=
  noteDock p (fun d => { d with code := some (c, .resting), replaced := none, lastResting := some c }) L

/-- The position is a kiosk with a known node. -/
def knownKiosk (L : Live) (p : Pos) : Bool := (L.dock p).kind = some .kiosk && (L.dock p).known

/-- The kiosk is excess: four known kiosks stand before it in position order (R23). -/
def excess (L : Live) (p : Pos) : Bool :=
  knownKiosk L p && decide (Config.enabledKiosks ≤ countPos fun q => decide (q.val < p.val) && knownKiosk L q)

/-- The resting code chosen for a READY or SILENT position: the first row of R45 that holds. -/
def chosenResting (L : Live) (p : Pos) : Option DisplayCode :=
  let d := L.dock p
  if !d.inRotation then none
  else if L.power.state = .holdover || !L.clock.valid then some .stationClosed
  else if (L.arm (armOf p)).state = .service then some .dockOutOfService
  else if d.kind = some .dock && barred L p then some .dockOutOfService
  else if d.kind = some .kiosk && (L.power.state = .quiet || excess L p) then some .stationClosed
  else some .ready

/-- The chosen code is placed where it differs from the one last placed (R45). -/
def refreshCode (p : Pos) (L : Live) : Live :=
  match chosenResting L p with
  | some c => if (L.dock p).lastResting = some c then L else placeResting p c L
  | none => L

/-- The resting code placed at an IDENTIFY answer (R39, R45). -/
def placeChosen (p : Pos) (L : Live) : Live :=
  match chosenResting L p with
  | some c => placeResting p c L
  | none => L

/-- The resting codes of several positions refreshed. -/
def refreshCodes (ps : List Pos) (L : Live) : Live := ps.foldl (fun M p => refreshCode p M) L

/-- The lamp due of a position: the first row of R32 that holds. -/
def lampDue (L : Live) (p : Pos) : Lamp :=
  let kiosk := (L.dock p).kind = some .kiosk
  if (L.arm (armOf p)).state = .service then .off
  else if kiosk && (L.power.state = .quiet || L.power.state = .holdover) then .off
  else if !kiosk && L.power.state = .holdover then .dim
  else .on

/-- LAMP is offered where the lamp due differs from the lamp field and none is under way (R32). -/
def checkLamp (p : Pos) (L : Live) : Live :=
  if (L.dock p).inRotation && (L.dock p).lamp ≠ some (lampDue L p) && !lampPending L p then
    (offer p (.lamp (lampDue L p)) .dockTable L).2
  else L

/-- The lamps of several positions checked, LAMP offered in position order (R32; DESIGN CHOICE, log 83). -/
def checkLamps (ps : List Pos) (L : Live) : Live := ps.foldl (fun M p => checkLamp p M) L

/-- The dock table recomputes lamps due and resting codes of several positions (R32, R45, R177, R186). The withdrawals of the
same change come after it (log 84). -/
def refreshNodes (ps : List Pos) (L : Live) : Live := refreshCodes ps (checkLamps ps L)

end Sys2Proof.Machine
end

