-- ==== Sys2Proof/Machine/Closing.lean ====
section
/-! DEFINITION. The closing list (section 4.7): places, entries, rounds of CLOSE STAMP, resightings. -/

namespace Sys2Proof.Machine

/-- The entry has this identity: bike ID and start minute (R90). -/
def ClosingRec.isFor (b : BikeId) (start : Minute) (e : ClosingRec) : Bool := e.bike = b && e.start = start

/-- The entry of an identity (R90). -/
def findClosing (L : Live) (b : BikeId) (start : Minute) : Option ClosingRec :=
  L.closing.find? (ClosingRec.isFor b start)

/-- Entries reserved by DEFERRED slots (R90). -/
def reservedEntries (L : Live) : Nat :=
  countPos fun p =>
    match (L.dock p).slot with
    | some s => s.reserved
    | none => false

/-- The closing list has a free place (R90). -/
def closingFree (L : Live) : Bool := decide (L.closing.length + reservedEntries L < Config.closingListSize)

/-- The entry of an identity changed. -/
def updClosing (b : BikeId) (start : Minute) (f : ClosingRec → ClosingRec) (L : Live) : Live :=
  { L with closing := L.closing.map fun e => if e.isFor b start then f e else e }

/-- The entry of an identity removed. -/
def removeClosing (b : BikeId) (start : Minute) (L : Live) : Live :=
  { L with closing := L.closing.filter fun e => !e.isFor b start }

/-- The dock's snapshot holds the bike with an OPEN stamp of the start minute (R91). -/
def DockRec.holdsStamp (b : BikeId) (start : Minute) (d : DockRec) : Bool :=
  match d.tag with
  | some t =>
    t.bike = b &&
      (match openStamp? t.stamp with
       | some s => s.start = start
       | none => false)
  | none => false

/-- The position whose dock record holds the bike with that OPEN stamp (R91). Where two records do, one of them the
record kept of a dock that does not answer, the lowest position is taken (log 65). -/
def findStamped (L : Live) (b : BikeId) (start : Minute) : Option Pos :=
  allPos.find? fun p => (L.dock p).holdsStamp b start

/-- CLOSE STAMP offered for an entry where its bike stands, and what an offer does to the entry (R91). -/
def offerClose (b : BikeId) (start : Minute) (L : Live) : Live :=
  match findClosing L b start with
  | none => L
  | some e =>
    match findStamped L b start with
    | none => updClosing b start (fun e => { e with state := .away, retry := none }) L
    | some p =>
      match offer p (.closeStamp b start e.close) .hireEngine L with
      | (.taken, M) => updClosing b start (fun e => { e with state := .sending, retry := none }) M
      | (.queueFull, M) => updClosing b start (fun e => { e with state := .sending, retry := some p }) M
      | (.nodeNotReady, M) => updClosing b start (fun e => { e with state := .away, retry := none }) M

/-- A round of CLOSE STAMP begins for an entry (R91). -/
def beginRound (b : BikeId) (start : Minute) (L : Live) : Live :=
  offerClose b start (updClosing b start (fun e => { e with tries := 0, state := .sending, retry := none }) L)

/-- A snapshot stored in place of another is a resighting of an AWAY entry (R91). -/
def resight (t : Tag) (L : Live) : Live :=
  match openStamp? t.stamp with
  | some s =>
    match findClosing L t.bike s.start with
    | some e => if e.state = .away then beginRound t.bike s.start L else L
    | none => L
  | none => L

/-- A clearing entry for a stamp (R90): made in a free place; without one, CLOSE STAMP in the clearing form is offered
once at the position and not followed. An identity already listed begins a new round (log 30). -/
def makeClearing (b : BikeId) (start : Minute) (p : Pos) (L : Live) : Live :=
  if (findClosing L b start).isSome then beginRound b start L
  else if closingFree L then
    beginRound b start
      { L with closing := L.closing ++ [{ bike := b, start := start, close := none, tries := 0, state := .sending
                                          retry := none }] }
  else (offer p (.closeStamp b start none) .hireEngine L).2

/-- The identities of the SENDING entries whose offer waits for an answered poll of the position (R91). -/
def retriesAt (L : Live) (p : Pos) : List (BikeId × Minute) :=
  (L.closing.filter fun e => e.state = .sending && e.retry = some p).map fun e => (e.bike, e.start)

/-- After an answered poll of the position the offers that waited for it are made again (R91). -/
def retryCloses (p : Pos) (L : Live) : Live :=
  (retriesAt L p).foldl (fun M i => offerClose i.1 i.2 M) L

/-- The clearing of a TAG FAULT record begins a new round for a STOPPED entry whose bike stands there (R91, R169). DESIGN CHOICE,
log 85: the bike of an entry stands there where the snapshot shows it with the entry's own OPEN stamp. -/
def stoppedRound (p : Pos) (L : Live) : Live :=
  match (L.dock p).tag with
  | some t =>
    match openStamp? t.stamp with
    | some s =>
      match findClosing L t.bike s.start with
      | some e => if e.state = .stopped then beginRound t.bike s.start L else L
      | none => L
    | none => L
  | none => L

end Sys2Proof.Machine
end

