-- ==== Sys2Proof/Machine/Faults.lean ====
section
/-! DEFINITION. The fault list unit (chapter 8): openings, bars, the three-record test, clearings, latch cycle counters,
and what a bar does to reservations and queued crew unlatches (R143, R148, R149, R164). -/

namespace Sys2Proof.Machine

/-! ## Reservations and crew unlatches that a bar, an arm or a close takes back -/

/-- A reservation at the position becomes NONE (R148, R149). -/
def dropReservation (g : Setup) (p : Pos) (L : Live) : Live :=
  if (L.dock p).reservation = .none then L else updDock g p (fun d => { d with reservation := .none }) L

/-- The reservations of several positions become NONE, each a change of record (R148, R151). -/
def dropReservations (g : Setup) (ps : List Pos) (L : Live) : Live := ps.foldl (fun M p => dropReservation g p M) L

/-- A VAN PICKUP reservation becomes NONE (R149). -/
def dropPickup (g : Setup) (p : Pos) (L : Live) : Live :=
  if (L.dock p).reservation = .vanPickup then dropReservation g p L else L

/-- The crew action of a dock (R139). -/
def findCrew (L : Live) (p : Pos) : Option CrewAction := L.crew.find? fun c => c.pos = p

/-- The crew action of a dock ends. -/
def endCrew (p : Pos) (L : Live) : Live := { L with crew := L.crew.filter fun c => c.pos ≠ p }

/-- A crew unlatch still queued is withdrawn, its action ending, and a code shown where there is one (R143). -/
def withdrawCrew (g : Setup) (code : Option DisplayCode) (p : Pos) (L : Live) : Live :=
  if (findCrew L p).isSome && unlatchQueued L p then
    let M := endCrew p (withdrawUnlatch g p L)
    match code with
    | some c => placeMessage p c M
    | none => M
  else L

/-- The bar flag of a dock was set (R164): resting code, reservation, queued crew unlatch. -/
def barSet (g : Setup) (p : Pos) (L : Live) : Live :=
  withdrawCrew g (some .dockOutOfService) p (dropReservation g p (refreshCode p L))

/-- A change in the barring records of a position is acted on (R162, R164). -/
def barChange (g : Setup) (p : Pos) (before : Bool) (L : Live) : Live :=
  if before = barred L p then L else if barred L p then barSet g p L else refreshCode p L

/-! ## Openings -/

/-- The record has this kind and subject (R157). -/
def FaultRec.isFor (k : FaultKind) (s : Subject) (f : FaultRec) : Bool := f.kind = k && f.subject = s

/-- The subject is a position of kind DOCK (R162, R163). -/
def dockSubject (L : Live) : Subject → Bool
  | .position p => (L.dock p).kind = some .dock
  | _ => false

/-- LATCH JAM, TAG FAULT and READER FAULT bar a dock in their own right (R162). -/
def FaultKind.bars : FaultKind → Bool
  | .latchJam | .tagFault | .readerFault => true
  | _ => false

/-- The next fault number (R155). -/
def nextNumber (n : Nat) : Nat := if n = 65535 then 1 else n + 1

/-- The first number from n on that no record holds (R155). -/
def freshNumber (fs : List FaultRec) : Nat → Nat → Nat
  | 0, n => n
  | fuel + 1, n => if fs.any (fun f => f.number = n) then freshNumber fs fuel (nextNumber n) else n

/-- Report minutes with a further report, the oldest of three leaving (R161). -/
def joinReports (rs : List Minute) (m : Minute) : List Minute := (rs ++ [m]).drop ((rs ++ [m]).length - 3)

/-- Three reports with the newest no more than 1440 minutes after the oldest (R161). -/
def threeReports (rs : List Minute) : Bool :=
  match rs with
  | [a, _, c] => decide (c ≤ a + Config.reportSpan)
  | _ => false

/-- A DOCK REPORTED record repeated at minute m: its run restarts or goes on (R161). -/
def repeatReport (m : Minute) (f : FaultRec) : FaultRec :=
  if Config.reportSpan < m - f.lastSeen then { f with repeats := 1, reports := [m], lastSeen := m }
  else { f with repeats := min 65535 (f.repeats + 1), reports := joinReports f.reports m, lastSeen := m }

/-- A live record repeated (R157, R161). -/
def repeatFault (m : Minute) (detail : FaultDetail) (f : FaultRec) : FaultRec :=
  let f' :=
    if f.kind = .dockReported then repeatReport m f
    else { f with repeats := min 65535 (f.repeats + 1), lastSeen := m }
  { f' with detail := detail }

/-- Journal pending with a waiting FAULT CLEARED withdrawn (R157). -/
def JournalPending.withdrawCleared : JournalPending → JournalPending
  | .cleared => .none
  | .both => .opened
  | x => x

/-- A CLEARED record reopened and repeated (R157); a DOCK REPORTED begins a new run (R161, log 32). -/
def reopenFault (m : Minute) (detail : FaultDetail) (f : FaultRec) : FaultRec :=
  let f' := { f with state := .opened, clearing := none, barring := false, pending := f.pending.withdrawCleared }
  if f.kind = .dockReported then { f' with repeats := 1, reports := [m], lastSeen := m, detail := detail }
  else repeatFault m detail f'

/-- The barring flag decided at an opening, repeat or reopening, from the position's kind at that moment (R161, R162). -/
def decideBarring (isDock : Bool) (f : FaultRec) : FaultRec :=
  if isDock && (f.kind.bars || (f.kind = .dockReported && threeReports f.reports)) then { f with barring := true }
  else f

/-- The records whose live number the three-record test counts (R163). -/
def liveAt (fs : List FaultRec) (s : Subject) : List FaultRec := fs.filter fun f => f.live && f.subject = s

/-- The three-record test: the newest live record that is not NODE LOST becomes barring (R163). -/
def threeRecordTest (isDock : Bool) (s : Subject) (fs : List FaultRec) : List FaultRec :=
  if isDock && decide (Config.threeRecords ≤ (liveAt fs s).length) then
    match ((liveAt fs s).filter fun f => f.kind ≠ .nodeLost).getLast? with
    | some n => fs.map fun f => if f.number = n.number && f.subject = s && f.live then { f with barring := true } else f
    | none => fs
  else fs

/-- The position a subject names. -/
def Subject.pos? : Subject → Option Pos
  | .position p => some p
  | _ => none

/-- The change of the barring set of the subject's position is acted on. -/
def barChangeOf (g : Setup) (s : Subject) (before : Bool) (L : Live) : Live :=
  match s.pos? with
  | some p => barChange g p before L
  | none => L

/-- The subject's position is barred. -/
def barredSubject (L : Live) (s : Subject) : Bool :=
  match s.pos? with
  | some p => barred L p
  | none => false

/-- The fault list with an existing record of the kind and subject changed, bars decided and tested. -/
def updFault (g : Setup) (k : FaultKind) (s : Subject) (f : FaultRec → FaultRec) (L : Live) : Live :=
  let isDock := dockSubject L s
  let fs := L.faults.map fun r => if r.isFor k s then decideBarring isDock (f r) else r
  barChangeOf g s (barredSubject L s) (setFaults g (threeRecordTest isDock s fs) L)

/-- FAULT OPENED of a record (R171). -/
def faultOpenedRecord (f : FaultRec) (L : Live) : Live :=
  append f.opening f.subject (.faultOpened f.number f.kind f.barringAtOpening f.detail) L

/-- A new record at the newest end (R155, R157), FAULT NEW raised and FAULT OPENED asked of the journal. -/
def newFault (g : Setup) (k : FaultKind) (s : Subject) (detail : FaultDetail) (L : Live) : Live :=
  let isDock := dockSubject L s
  let n := freshNumber L.faults (L.faults.length + 1) L.nextFault
  let m := L.clock.minute
  let f0 : FaultRec :=
    { number := n, kind := k, subject := s, state := .opened, opening := now L, lastSeen := m, repeats := 1
      reports := if k = .dockReported then [m] else [], barring := false, detail := detail, pending := .opened
      clearing := none, barringAtOpening := false }
  let fs := threeRecordTest isDock s (L.faults ++ [decideBarring isDock f0])
  let bar := fs.any fun f => f.number = n && f.barring
  let room := endRoom L
  let fs' := fs.map fun f =>
    if f.number = n then { f with barringAtOpening := bar, pending := if room then .none else .opened } else f
  let M := raise .faultNew (setFaults g fs' { L with nextFault := nextNumber n })
  let M := if room then faultOpenedRecord { f0 with barringAtOpening := bar } M else M
  barChangeOf g s (barredSubject L s) M

/-- Records of every kind but LIST FULL (R158). -/
def ordinaryCount (L : Live) : Nat := L.faults.countP fun f => f.kind ≠ .listFull

/-- An opening of a kind whose place is not limited (R157). -/
def openPlaced (g : Setup) (k : FaultKind) (s : Subject) (detail : FaultDetail) (L : Live) : Live :=
  match L.faults.find? (FaultRec.isFor k s) with
  | some f =>
    if f.live then updFault g k s (repeatFault L.clock.minute detail) L
    else raise .faultNew (updFault g k s (reopenFault L.clock.minute detail) L)
  | none => newFault g k s detail L

/-- The fault has a place: it repeats or reopens a record, or an ordinary place is free (R158). -/
def faultHasPlace (L : Live) (k : FaultKind) (s : Subject) : Bool :=
  (L.faults.find? (FaultRec.isFor k s)).isSome || decide (ordinaryCount L < Config.ordinaryFaults)

/-- The pickups whose bike gained a fault mark lose their reservation (R149). -/
def dropMarkedPickups (g : Setup) (b : BikeId) (L : Live) : Live :=
  allPos.foldl
    (fun M p =>
      match (M.dock p).tag with
      | some t => if t.bike = b then dropPickup g p M else M
      | none => M)
    L

/-- A fault handed to the list (R157, R158): stored, or lost with LIST FULL opened in its place. -/
def openFault (g : Setup) (k : FaultKind) (s : Subject) (detail : FaultDetail) (L : Live) : Live :=
  if faultHasPlace L k s then
    let M := openPlaced g k s detail L
    match k, s with
    | .bikeReported, .bike b => dropMarkedPickups g b M
    | _, _ => M
  else openPlaced g .listFull .station (.lastLost k s) L

/-- A fault whose subject is a position and which has no detail. -/
def openAt (g : Setup) (k : FaultKind) (p : Pos) (L : Live) : Live := openFault g k (.position p) .none L

/-! ## Clearing -/

/-- FAULT CLEARED of a record (R171). -/
def faultClearedRecord (f : FaultRec) (L : Live) : Live :=
  match f.clearing with
  | some (means, at_, bar) =>
    append at_ f.subject (.faultCleared f.number f.kind f.repeats f.opening.minute f.lastSeen bar means) L
  | none => L

/-- Journal pending of a record whose FAULT CLEARED is asked (R169). -/
def JournalPending.askCleared : JournalPending → JournalPending
  | .none => .cleared
  | .opened => .both
  | x => x

/-- A record is removed, or a record of the number replaced by another. -/
def putFault (g : Setup) (n : Nat) (f : Option FaultRec) (L : Live) : Live :=
  setFaults g
    (match f with
     | some r => L.faults.map fun x => if x.number = n then r else x
     | none => L.faults.filter fun x => x.number ≠ n)
    L

/-- A record is cleared in one step and the clearing handed on (R169). -/
def clearFault (g : Setup) (means : Means) (f : FaultRec) (L : Live) : Live :=
  let f' : FaultRec :=
    { f with state := .cleared, barring := false, clearing := some (means, now L, f.barring)
             pending := f.pending.askCleared }
  let before := barredSubject L f.subject
  let M :=
    if f.pending = .none ∧ endRoom L then putFault g f.number none (faultClearedRecord f' L)
    else putFault g f.number (some f') L
  let M := barChangeOf g f.subject before M
  match f.kind, f.subject with
  | .tagFault, .position p => stoppedRound p M
  | _, _ => M

/-- Every record of a test is cleared (R80, R167, R169), in list order (log 76). -/
def clearFaults (g : Setup) (means : Means) (fs : List FaultRec) (L : Live) : Live :=
  fs.foldl (fun M f => clearFault g means f M) L

/-- The barring records about a position. -/
def barringAt (L : Live) (p : Pos) : List FaultRec := L.faults.filter fun f => f.barring && f.subject = .position p

/-- A live record of a kind and subject is cleared, if there is one (R168). -/
def clearLive (g : Setup) (means : Means) (k : FaultKind) (s : Subject) (L : Live) : Live :=
  match L.faults.find? (fun f => f.isFor k s && f.live) with
  | some f => clearFault g means f L
  | none => L

/-- One waiting write of a fault record is made (R170). -/
def serveFault (g : Setup) (n : Nat) (L : Live) : Live :=
  match L.faults.find? (fun f => f.number = n && f.waits) with
  | none => L
  | some f =>
    match f.pending with
    | .opened => putFault g n (some { f with pending := .none }) (faultOpenedRecord f L)
    | .both => putFault g n (some { f with pending := .cleared }) (faultOpenedRecord f L)
    | _ => putFault g n none (faultClearedRecord f L)

/-- The barring flags of a position's records are taken off at a kind change from DOCK to KIOSK (R162). -/
def unbarPosition (g : Setup) (p : Pos) (L : Live) : Live :=
  let before := barred L p
  barChange g p before
    (setFaults g (L.faults.map fun f => if f.subject = .position p then { f with barring := false } else f) L)

/-! ## Latch cycle counters (R173, R174) -/

/-- The preset applying to a position: the value of the preset its index names (R174). -/
def applying (g : Setup) (p : Pos) : Option Nat :=
  match h : (g.presetIndex[p]).val with
  | 0 => none
  | n + 1 => g.presets[n]'(by have := (g.presetIndex[p]).isLt; omega)

/-- The counter of a position. -/
def Live.counter (L : Live) (p : Pos) : Nat := L.counters[p]

/-- SERVICE DUE opened for a position with its count and preset value (R174, R175). -/
def openServiceDue (g : Setup) (p : Pos) (preset : Nat) (L : Live) : Live :=
  openFault g .serviceDue (.position p) (.serviceDue (L.counter p) preset) L

/-- A transition into HELD: the counter rises, and SERVICE DUE is opened when it reaches the applying preset (R173,
R174). A kiosk position's counter does not move. -/
def transition (g : Setup) (p : Pos) (L : Live) : Live :=
  if (L.dock p).kind ≠ some .kiosk ∧ L.counter p < Config.counterCeiling then
    let M := { L with counters := upd L.counters p (· + 1) }
    match applying g p with
    | some v => if M.counter p = v then openServiceDue g p v M else M
    | none => M
  else L

end Sys2Proof.Machine
end

