-- ==== Sys2Proof/Machine/Van.lean ====
section
/-! DEFINITION. The fill and van unit (chapter 7): the work order, visits and their close, crew actions, van drops,
moves of reservations. -/

namespace Sys2Proof.Machine

/-! ## Visits -/

/-- A visit is OPEN or WORKING. -/
def visitOn (L : Live) : Bool := L.visit.state = .opened || L.visit.state = .working

/-- The visit's data changed. -/
def updVisit (f : VisitRec → VisitRec) (L : Live) : Live :=
  { L with visit := { L.visit with data := L.visit.data.map f } }

/-- VAN VISIT of a closed visit (R152). -/
def vanVisitRecord (v : VisitRec) (L : Live) : Live :=
  match v.close with
  | some (reason, at_) =>
    append at_ .station
      (.vanVisit v.van (v.pickupsPlanned, v.dropsPlanned, v.collectionsPlanned)
        (v.pickupsDone, v.dropsDone, v.collectionsDone) reason)
      L
  | none => L

/-- The summary appended, or pending in the visit record (R152). -/
def writeSummary (L : Live) : Live :=
  match L.visit.data with
  | some v => if endRoom L then vanVisitRecord v L else updVisit (fun v => { v with summaryPending := true }) L
  | none => L

/-- The positions with a crew pickup in flight. -/
def pickupPositions (L : Live) : List Pos := (L.crew.filter fun c => c.purpose = .pickup).map (·.pos)

/-- The close of a visit, in the order of R151. -/
def closeVisit (g : Setup) (reason : CloseReason) (L : Live) : Live :=
  let closed :=
    { L with visit :=
        { state := .closed
          data := L.visit.data.map fun v => { v with close := some (reason, now L), secondsLeft := 0 } } }
  let freed := dropReservations g allPos closed
  let withdrawn := (pickupPositions freed).foldl (fun M p => withdrawCrew g none p M) freed
  raise .vanDone (writeSummary withdrawn)

/-- The work order asks for something: one whose counts are all zero is completed by no done count (R151; log 79). -/
def VisitRec.asksWork (v : VisitRec) : Bool :=
  v.pickupsPlanned ≠ 0 || v.dropsPlanned ≠ 0 || v.collectionsPlanned ≠ 0

/-- The work order is met: each done count is at least its planned count (R151). -/
def VisitRec.complete (v : VisitRec) : Bool :=
  v.asksWork && decide (v.pickupsPlanned ≤ v.pickupsDone ∧ v.dropsPlanned ≤ v.dropsDone ∧
    v.collectionsPlanned ≤ v.collectionsDone)

/-- The completion test, made at each rise of a done count (R151). -/
def completionTest (g : Setup) (L : Live) : Live :=
  match L.visit.data with
  | some v => if v.complete then closeVisit g .complete L else L
  | none => L

/-- A done count rises, saturating at 255 (R133), and completion is tested. -/
def countDone (g : Setup) (f : VisitRec → VisitRec) (L : Live) : Live :=
  if visitOn L then completionTest g (updVisit f L) else L

/-- The first tap of the visit's crew card makes the visit WORKING (R137). -/
def visitTap (card : CardId) (L : Live) : Live :=
  match L.visit.data with
  | some v =>
    if L.visit.state = .opened ∧ v.card = card then { L with visit := { L.visit with state := .working } } else L
  | none => L

/-! ## The work order (R135, R136) -/

/-- The first n positions of a test, in position order. -/
def firstPos (n : Nat) (f : Pos → Bool) : List Pos := (allPos.filter f).take n

/-- Pickups planned. -/
def planPickups (g : Setup) (L : Live) : Nat := L.fill.hireable - g.target

/-- Drops planned. -/
def planDrops (g : Setup) (L : Live) : Nat := min (g.target - L.fill.hireable) L.fill.free

/-- A reservation written into several dock records (R136). -/
def reserve (g : Setup) (r : Reservation) (ps : List Pos) (L : Live) : Live :=
  ps.foldl (fun M p => updDock g p (fun d => { d with reservation := r }) M) L

/-! ## Crew taps (R138, R139) -/

/-- An unlatch for a crew tap (R139). -/
def crewUnlatch (g : Setup) (p : Pos) (purpose : Purpose) (card : CardId) (counted : Bool) (L : Live) : Live :=
  let action : CrewAction :=
    { pos := p, purpose := purpose, bike := (L.dock p).bike, card := card, counted := counted }
  match offerUnlatch g p none .fillUnit L with
  | (.taken, M) => { M with crew := M.crew ++ [action] }
  | (_, M) => placeMessage p .stationBusy M

/-- The card is the crew card of a WORKING visit. -/
def visitCard (L : Live) (card : CardId) : Bool :=
  L.visit.state = .working &&
    (match L.visit.data with
     | some v => v.card = card
     | none => false)

/-- Steps 7 to 9 of a crew tap, at a HELD latch (R138). Step 8 does not ask for the snapshot's read result. -/
def crewHeld (g : Setup) (p : Pos) (card : CardId) (L : Live) : Live :=
  let mine := visitCard L card
  if (L.dock p).tag.any (marked L) then crewUnlatch g p .collection card mine L
  else if (L.dock p).reservation = .vanPickup ∧ mine then crewUnlatch g p .pickup card true L
  else placeMessage p .limitReached L

/-- A crew tap at a dock whose bar flag is clear (R137, R138). At a query's position that became a kiosk's meanwhile no latch
stands: the visit becomes WORKING and steps 1 to 4 refuse, and otherwise nothing is shown (R58; log 66). -/
def crewTap (g : Setup) (p : Pos) (r : CardRec) (L : Live) : Live :=
  let L := visitTap r.card L
  if r.status = .blocked then placeMessage p .cardBlocked L
  else if r.expired L.clock.minute then placeMessage p .cardExpired L
  else if (L.power.state ≠ .run ∧ L.power.state ≠ .quiet) ∨ !L.clock.valid then placeMessage p .stationClosed L
  else if (L.dock p).link ≠ .ready ∨ (L.arm (armOf p)).state ≠ .running then placeMessage p .dockOutOfService L
  else
    match (L.dock p).latch with
    | some .unlatching | some .opened => placeMessage p .wait L
    | some .empty => placeMessage p .noBike L
    | some .held => crewHeld g p r.card L
    | _ => L

/-- A crew tap at a barred dock (R167). -/
def crewClear (g : Setup) (p : Pos) (r : CardRec) (L : Live) : Live :=
  let L := visitTap r.card L
  if r.status = .blocked then placeMessage p .cardBlocked L
  else if r.expired L.clock.minute then placeMessage p .cardExpired L
  else placeMessage p .crewOk (clearFaults g (.crew r.card) (barringAt L p) L)

/-! ## The end of a crew action (R139–R142) -/

/-- TAKEN ends a pickup (R140). -/
def pickupTaken (g : Setup) (p : Pos) (c : CrewAction) (bike : Option BikeId) (L : Live) : Live :=
  let L := dropPickup g p (bikeMove p .vanPickup bike L)
  if c.counted then countDone g (fun v => { v with pickupsDone := min 255 (v.pickupsDone + 1) }) L else L

/-- TAKEN ends a collection (R141). -/
def collectionTaken (g : Setup) (p : Pos) (c : CrewAction) (bike : Option BikeId) (L : Live) : Live :=
  let L := dropPickup g p (bikeMove p .crewRemoval bike L)
  let L :=
    match c.bike with
    | some b => clearLive g .collected .bikeReported (.bike b) L
    | none => L
  if c.counted then countDone g (fun v => { v with collectionsDone := min 255 (v.collectionsDone + 1) }) L else L

/-- TAKEN ends a crew action (R140, R141). -/
def crewTaken (g : Setup) (p : Pos) (c : CrewAction) (bike : Option BikeId) (L : Live) : Live :=
  let L := endCrew p L
  match c.purpose with
  | .pickup => pickupTaken g p c bike L
  | .collection => collectionTaken g p c bike L

/-! ## Drops and moved reservations (R145, R146) -/

/-- The reservation a van drop consumes or drops (R145). -/
def dropMeets (g : Setup) (p : Pos) (L : Live) : Live :=
  if (L.dock p).reservation = .vanDrop then dropReservation g p L
  else
    match (allPos.filter fun q => (L.dock q).reservation = .vanDrop).getLast? with
    | some q => dropReservation g q L
    | none => L

/-- A van drop (R145). -/
def vanDrop (g : Setup) (p : Pos) (bike : BikeId) (L : Live) : Live :=
  let L := bikeMove p .vanDrop (some bike) L
  let L := updVisit (fun v => { v with dropsDone := min 255 (v.dropsDone + 1) }) L
  completionTest g (dropMeets g p L)

/-- A VAN DROP reservation moved to the first free dock, or dropped, as one change (R146). -/
def moveReservation (g : Setup) (p : Pos) (L : Live) : Live :=
  if (L.dock p).reservation = .vanDrop then
    match allPos.find? (freeDock L) with
    | some q =>
      refill g
        (noteDock q (fun d => { d with reservation := .vanDrop }) (noteDock p (fun d => { d with reservation := .none }) L))
    | none => dropReservation g p L
  else L

end Sys2Proof.Machine
end

