-- ==== Sys2Proof/Machine/Hire.lean ====
section
/-! DEFINITION. The hire engine (chapter 4): settlement slots, returns, arrivals, releases in flight and their ends, the
closing list's outcomes, remote entries; and the journal's serving of its waiting writers (R121). -/

namespace Sys2Proof.Machine

/-! ## Identities -/

/-- A position holds a settlement slot of the stamp with this identity (R83). -/
def slotHolds (L : Live) (b : BikeId) (start : Minute) (p : Pos) : Bool :=
  match (L.dock p).slot with
  | some s => s.bike = b && s.stamp.start = start
  | none => false

/-- A release of this identity in OPEN or UNCERTAIN at a dock other than p (R83 row 4). -/
def releaseElsewhere (L : Live) (b : BikeId) (start : Minute) (p : Pos) : Option Release :=
  L.releases.find? fun r =>
    r.pos ≠ p && r.bike = b && r.stamp.start = start &&
      ((L.dock r.pos).latch = some .opened || (L.dock r.pos).latch = some .uncertain)

/-- The release record of a dock (R73). -/
def findRelease (L : Live) (p : Pos) : Option Release := L.releases.find? fun r => r.pos = p

/-! ## Remote entries (R82) -/

/-- A remote release ends: its PENDING entry becomes ENDED and REMOTE DONE is raised. -/
def endRemote (r : Release) (result : RemoteResult) (L : Live) : Live :=
  if r.remote then
    raise .remoteDone
      { L with remotes := L.remotes.map fun e =>
          if e.pos = r.pos ∧ e.ended = none then { e with ended := some (result, L.clock.minute) } else e }
  else L

/-! ## Returns (R84, R85) -/

/-- A slot placed at a return, with its fare where the clock is valid (R84, R86). -/
def newSlot (g : Setup) (t : Tag) (s : Stamp) (finish : Minute) (fill : FillState) (late : Bool) (L : Live) : Slot :=
  let f := fareRequest g s t.kind finish fill
  if L.clock.valid then
    { bike := t.bike, kind := t.kind, stamp := s, endMinute := some finish, fill := fill, fare := some f.1
      flags := { f.2 with late := late }, window := .running, secondsLeft := g.settleWindow, settlement := none
      reserved := false, asked := none }
  else
    { bike := t.bike, kind := t.kind, stamp := s, endMinute := none, fill := fill, fare := none
      flags := { FareFlags.none with late := late }, window := .expired, secondsLeft := 0, settlement := none
      reserved := false, asked := none }

/-- CLOCK is opened for a bike whose slot carries the flag (R84). -/
def openClockFault (g : Setup) (p : Pos) (s : Slot) (L : Live) : Live :=
  if s.flags.clock then openFault g .clock (.bike s.bike) (.clockAt p) L else L

/-- A return (R84). -/
def giveReturn (g : Setup) (p : Pos) (t : Tag) (s : Stamp) (finish : Minute) (fill : FillState) (late : Bool)
    (L : Live) : Live :=
  let L := giveBack s.card L
  let slot := newSlot g t s finish fill late L
  let L := openClockFault g p slot L
  let L := updDock g p (fun d => { d with slot := some slot }) L
  moveReservation g p (placeMessage p .returnOk L)

/-- An OPEN stamp at the position fits row 6 of R83: none of the rows before it. -/
def fitsReturn (L : Live) (p : Pos) (t : Tag) (s : Stamp) : Bool :=
  (findClosing L t.bike s.start).isNone && !allPos.any (slotHolds L t.bike s.start) &&
    (releaseElsewhere L t.bike s.start p).isNone && (L.dock p).slot.isNone

/-- When a slot leaves a record, a held arrival still in the latch is handled as a return (R85). LATE is clear, also for
a stamp that an initial snapshot held back (log 24). -/
def heldArrival (g : Setup) (p : Pos) (L : Live) : Live :=
  match (L.dock p).latch, (L.dock p).tag with
  | some .held, some t =>
    match openStamp? t.stamp with
    | some s =>
      if fitsReturn L p t s then
        giveReturn g p t s (((L.dock p).lastBikeIn).getD L.clock.minute) L.fillState false L
      else L
    | none => L
  | _, _ => L

/-! ## Settlement (R88, R109, R110) -/

/-- A slot's HIRE END record. -/
def hireEndRecord (p : Pos) (s : Slot) (L : Live) : Live :=
  append (s.asked.getD (now L)) (.bike s.bike) (.hireEnd s p) L

/-- HIRE END was written: the stamp becomes a closing entry, the slot leaves, a round begins, a held arrival is decided
(R88, R121). -/
def slotWritten (g : Setup) (p : Pos) (s : Slot) (L : Live) : Live :=
  let L :=
    { L with closing := L.closing ++ [{ bike := s.bike, start := s.stamp.start, close := some (s.endMinute.getD 0)
                                        tries := 0, state := .sending, retry := none }] }
  let L := updDock g p (fun d => { d with slot := none }) L
  heldArrival g p (beginRound s.bike s.stamp.start L)

/-- Step 3 of the settlement: HIRE END appended, or the slot DEFERRED with cause JOURNAL (R88). -/
def journalStep (g : Setup) (p : Pos) (s : Slot) (L : Live) : Live :=
  let s := { s with asked := some (now L), reserved := true }
  if endRoom L then slotWritten g p s (hireEndRecord p s L)
  else updDock g p (fun d => { d with slot := some { s with window := .deferredJournal } }) L

/-- Step 2 of the settlement: an entry of the closing list reserved, or the slot DEFERRED with cause CLOSING LIST. -/
def listStep (g : Setup) (p : Pos) (s : Slot) (L : Live) : Live :=
  if closingFree L then journalStep g p s L
  else updDock g p (fun d => { d with slot := some { s with window := .deferredList } }) L

/-- Step 1 of the settlement: the waiver, the charge, the slot's settlement figures (R109, R110). -/
def settleFigures (s : Slot) (L : Live) : Slot × Live :=
  let fn := finalNet s
  if s.stamp.pass then
    match charge s.stamp.card fn.1 L with
    | (some c, M) =>
      ({ s with settlement := some { kind := .hold, charged := c, shortfall := fn.1 - c, finalNet := fn.1 }
                flags := { s.flags with waived := fn.2 } }, M)
    | (none, M) =>
      ({ s with settlement := some { kind := .hold, charged := 0, shortfall := fn.1, finalNet := fn.1 }
                flags := { s.flags with waived := fn.2, holdRemote := true } }, M)
  else
    ({ s with settlement := some { kind := .account, charged := 0, shortfall := 0, finalNet := fn.1 }
              flags := { s.flags with waived := fn.2 } }, L)

/-- The settlement of a slot whose window is over (R88). -/
def settle (g : Setup) (p : Pos) (s : Slot) (L : Live) : Live :=
  let r := settleFigures s L
  listStep g p { r.1 with secondsLeft := 0 } r.2

/-- The slot at the position is settled where its window is RUNNING or REPORTED (R86: expiry, departure, restart). -/
def settleOpen (g : Setup) (p : Pos) (L : Live) : Live :=
  match (L.dock p).slot with
  | some s => if s.window = .running ∨ s.window = .reported then settle g p s L else L
  | none => L

/-- The slots DEFERRED for the closing list are served in position order when an entry leaves the list (R88). -/
def serveList (g : Setup) (L : Live) : Live :=
  allPos.foldl
    (fun M p =>
      match (M.dock p).slot with
      | some s => if s.window = .deferredList ∧ closingFree M then journalStep g p s M else M
      | none => M)
    L

/-- An entry leaves the closing list (R90), and slots waiting for the list are served (R88). -/
def leaveClosing (g : Setup) (b : BikeId) (start : Minute) (L : Live) : Live :=
  if (findClosing L b start).isSome then serveList g (removeClosing b start L) else L

/-- An EXPIRED slot priced late when the clock becomes valid (R84), and settled at once. -/
def priceLate (g : Setup) (p : Pos) (L : Live) : Live :=
  match (L.dock p).slot with
  | some s =>
    if s.window = .expired then
      let f := fareRequest g s.stamp s.kind L.clock.minute s.fill
      let s' := { s with endMinute := some L.clock.minute, fare := some f.1, flags := { f.2 with late := true } }
      settle g p s' (openClockFault g p s' L)
    else L
  | none => L

/-- Every EXPIRED slot is priced late (R84), in position order (log 67). -/
def priceAllLate (g : Setup) (L : Live) : Live := allPos.foldl (fun M p => priceLate g p M) L

/-! ## Serving the journal's waiting writers (R121) -/

/-- The oldest deferred move of a position is written and leaves the list. -/
def serveMove (p : Pos) (L : Live) : Live :=
  match (L.dock p).moves with
  | m :: ms => moveRecord p m (noteDock p (fun d => { d with moves := ms }) L)
  | [] => L

/-- One waiting writer's record is appended and the result handed back to its owner (R121). -/
def serveOne (g : Setup) (w : Writer) (L : Live) : Live :=
  match w with
  | .slot p =>
    match (L.dock p).slot with
    | some s => slotWritten g p s (hireEndRecord p s L)
    | none => L
  | .move p => serveMove p L
  | .fault n => serveFault g n L
  | .summary =>
    match L.visit.data with
    | some v => updVisit (fun v => { v with summaryPending := false }) (vanVisitRecord v L)
    | none => L
  | .pass c =>
    match findCard L.cards c with
    | some r =>
      match r.closure with
      | some k =>
        let M := passClosedRecord r k L
        { M with cards := removeCard c M.cards }
      | none => L
    | none => L

/-- The journal serves its waiting writers until no room or no writer is left; each serving uses one slot of room
(R121). -/
def serveUpTo (g : Setup) : Nat → Live → Live
  | 0, L => L
  | n + 1, L =>
    match firstWriter L with
    | none => L
    | some w => if L.journal.room = 0 then L else serveUpTo g n (serveOne g w L)

/-- The serving of R121. -/
def serve (g : Setup) (L : Live) : Live := serveUpTo g L.journal.room L

/-- A claim is dropped, and waiting writers are served (R118, R121). -/
def dropClaim (g : Setup) (L : Live) : Live :=
  serve g { L with journal := { L.journal with claims := L.journal.claims - 1 } }

/-! ## Ends of a release (R74–R79) -/

/-- The release record leaves. -/
def removeRelease (p : Pos) (L : Live) : Live := { L with releases := L.releases.filter fun r => r.pos ≠ p }

/-- A release ends without a take: the card is given back, the claim dropped, the remote entry ended (R74, R76, R77). -/
def releaseFails (g : Setup) (r : Release) (result : RemoteResult) (L : Live) : Live :=
  endRemote r result (dropClaim g (giveBack r.stamp.card (removeRelease r.pos L)))

/-- A release ends in a take: HIRE START in its claim's room (R75, R82). -/
def releaseTaken (r : Release) (late : Bool) (L : Live) : Live :=
  endRemote r (.done late)
    (appendClaimed (now L) (.card r.stamp.card) (.hireStart r.stamp r.bike r.kind r.pos late) (removeRelease r.pos L))

/-- The latch becomes EMPTY and the bike's snapshot and BIKE IN minute are removed (R34). -/
def emptyLatch (g : Setup) (p : Pos) (L : Live) : Live :=
  updDock g p (fun d => { d with latch := some .empty, snapshot := none, lastBikeIn := none }) L

/-- A settled latch stays where the record is of a dock whose node is known; at an ABSENT position and in a KIOSK record
latch state, snapshot and BIKE IN minute are removed (R25, R42, R80; log 56). -/
def dropSettled (g : Setup) (p : Pos) (L : Live) : Live :=
  if (L.dock p).kind = some .dock ∧ (L.dock p).known then L
  else updDock g p (fun d => { d with latch := none, snapshot := none, lastBikeIn := none }) L

/-- The release of a bike seen elsewhere settled as TAKEN, LATE where it was UNCERTAIN (R83 row 4, R92). -/
def settleElsewhere (g : Setup) (r : Release) (L : Live) : Live :=
  let late := (L.dock r.pos).latch = some .uncertain
  dropSettled g r.pos (emptyLatch g r.pos (releaseTaken r late L))

/-- Queued rider unlatches of several positions withdrawn, their releases ending and a code shown (R77). -/
def withdrawRelease (g : Setup) (code : DisplayCode) (p : Pos) (L : Live) : Live :=
  match findRelease L p with
  | some r =>
    if unlatchQueued L p then
      placeMessage p code (releaseFails g r (.refused code) (withdrawUnlatch g p L))
    else L
  | none => L

/-- The rider unlatches of several positions (R77), in position order (log 83). -/
def withdrawReleases (g : Setup) (code : DisplayCode) (ps : List Pos) (L : Live) : Live :=
  ps.foldl (fun M p => withdrawRelease g code p M) L

/-- The crew unlatches of several positions (R143), in position order (log 83). -/
def withdrawCrews (g : Setup) (code : DisplayCode) (ps : List Pos) (L : Live) : Live :=
  ps.foldl (fun M p => withdrawCrew g (some code) p M) L

/-! ## Arrivals (R83) -/

/-- Rows 5 and 6 of R83 for an OPEN stamp that no earlier row takes: held, or a return. -/
def heldOrReturn (g : Setup) (p : Pos) (t : Tag) (s : Stamp) (fill : FillState) (L : Live) : Live :=
  if (L.dock p).slot.isSome then moveReservation g p L else giveReturn g p t s L.clock.minute fill false L

/-- An arrival with an OPEN stamp (R83 rows 2 to 6). -/
def arrivalOpen (g : Setup) (p : Pos) (t : Tag) (s : Stamp) (fill : FillState) (L : Live) : Live :=
  if (findClosing L t.bike s.start).isSome then moveReservation g p (beginRound t.bike s.start L)
  else if allPos.any (slotHolds L t.bike s.start) then moveReservation g p L
  else
    match releaseElsewhere L t.bike s.start p with
    | some r => heldOrReturn g p t s fill (settleElsewhere g r L)
    | none => heldOrReturn g p t s fill L

/-- An arrival classified by its snapshot (R83); the fill state is the one that stood before it was counted (R26). -/
def arrival (g : Setup) (p : Pos) (snap : Snapshot) (fill : FillState) (L : Live) : Live :=
  match snap with
  | .unread => moveReservation g p (bikeMove p .unexplained none L)
  | .read t =>
    match openStamp? t.stamp with
    | some s => arrivalOpen g p t s fill L
    | none =>
      if L.visit.state = .working then vanDrop g p t.bike L
      else moveReservation g p (bikeMove p .unexplained (some t.bike) L)

/-- An initial snapshot from a first identification (R92). The last row holds a stamp back, as row 5 of R83 does, where
the position holds a slot of another stamp (log 23). -/
def initialSnapshot (g : Setup) (p : Pos) (snap : Option Snapshot) (fill : FillState) (L : Live) : Live :=
  match snap with
  | some (.read t) =>
    match openStamp? t.stamp with
    | none => L
    | some s =>
      let ret := fun M : Live =>
        if (M.dock p).slot.isSome then M else giveReturn g p t s M.clock.minute fill true M
      if (findClosing L t.bike s.start).isSome then beginRound t.bike s.start L
      else if allPos.any (slotHolds L t.bike s.start) then L
      else if g.station = some s.originStation ∧ s.originPos = p.val then
        makeClearing t.bike s.start p (giveBack s.card L)
      else
        match releaseElsewhere L t.bike s.start p with
        | some r => ret (settleElsewhere g r L)
        | none => ret L
  | _ => L

/-! ## The release decision (R71, R72) -/

/-- Steps 1 to 5 of the release decision: the refusal, or none. -/
def decideDock (p : Pos) (L : Live) : Option DisplayCode :=
  let d := L.dock p
  let arm := (L.arm (armOf p)).state
  if (L.power.state ≠ .run ∧ L.power.state ≠ .quiet) ∨ !L.clock.valid ∨ arm = .starting then some .stationClosed
  else if d.link ≠ .ready ∨ arm = .service ∨ barred L p then some .dockOutOfService
  else if d.latch ≠ some .held ∨ d.snapshot = none then some .noBike
  else if d.reservation ≠ .none then some .bikeReserved
  else
    match d.tag with
    | none => some .bikeFaulty
    | some t =>
      if !stampShut t.stamp ∨ marked L t ∨ d.slot.isSome then some .bikeFaulty
      else
        match t.stamp with
        | .closed s _ => if L.clock.minute ≤ s.start then some .wait else none
        | _ => none

/-- Steps 7 to 10 of the release decision for a card's record: the refusal, or none. -/
def decideCard (g : Setup) (r : CardRec) (L : Live) : Option DisplayCode :=
  if r.status = .blocked then some .cardBlocked
  else if r.expired L.clock.minute ∨ (r.role = .pass ∧ r.closure.isSome) then some .cardExpired
  else if r.allowance ≤ r.outCount then some .limitReached
  else if r.role = .pass ∧ r.holdRemaining < (g.current.plan r.plan).M then some .lowBalance
  else none

/-- The stamp of a release (R72). -/
def buildStamp (g : Setup) (p : Pos) (r : CardRec) (L : Live) : Stamp :=
  { card := r.card, start := L.clock.minute, originStation := g.station.getD 0, originPos := p.val, plan := r.plan
    revision := g.current.revision, pass := r.role = .pass }

/-- Steps 7 to 12 of the release decision (R71, R72): the refusal or none, and the state. A refusal leaves the card, the
journal and the dock as they were. -/
def decideRecord (g : Setup) (p : Pos) (r : CardRec) (remote : Bool) (L : Live) : Option DisplayCode × Live :=
  match decideCard g r L with
  | some c => (some c, L)
  | none =>
    if !startClassRoom L then (some .stationBusy, L)
    else if offerResult L p ≠ .taken then (some .stationBusy, L)
    else
      match takeOut? r.card L, (L.dock p).tag with
      | some M, some t =>
        let s := buildStamp g p r L
        let N := (offerUnlatch g p (some s) .hireEngine (claim M)).2
        (none, { N with releases := N.releases ++ [{ pos := p, stamp := s, remote := remote, bike := t.bike
                                                     kind := t.kind }] })
      | _, _ => (some .limitReached, L)

/-- The release decision for a tap (R71): step 6 is a tap lookup. -/
def decideTap (g : Setup) (p : Pos) (c : CardId) (L : Live) : Option DisplayCode × Live :=
  match decideDock p L with
  | some r => (some r, L)
  | none =>
    match tapLookup g c p L with
    | (.found r, M) => decideRecord g p r false M
    | (.unknown, M) => (some .cardUnknown, M)
    | (_, M) => (some .wait, M)

/-- The release decision for a remote release (R71, R81): step 6 is a direct lookup. -/
def decideRemote (g : Setup) (p : Pos) (c : CardId) (L : Live) : Option DisplayCode × Live :=
  match decideDock p L with
  | some r => (some r, L)
  | none =>
    match directLookup c L with
    | .found r => decideRecord g p r true L
    | _ => (some .cardUnknown, L)

/-- A refusal is shown at the dock (R70). -/
def showRefusal (p : Pos) (r : Option DisplayCode × Live) : Live :=
  match r.1 with
  | some c => placeMessage p c r.2
  | none => r.2

/-- A tap routed (R70). Where no latch state stands, at a query's position that became a kiosk's meanwhile, R70 routes it
nowhere and nothing is shown (R58; log 66). -/
def tap (g : Setup) (p : Pos) (c : CardId) (L : Live) : Live :=
  let rider :=
    match (L.dock p).latch with
    | some .unlatching | some .opened => placeMessage p .wait L
    | some .empty | some .held => showRefusal p (decideTap g p c L)
    | _ => L
  match findCard L.cards c with
  | some r => if r.role = .crew then (if barred L p then crewClear g p r L else crewTap g p r L) else rider
  | none => rider

/-- A written card record answers the query entry of its card: a fresh tap where the position is READY (R58). -/
def answerQuery (g : Setup) (c : CardId) (L : Live) : Live :=
  match findQuery L c with
  | some q =>
    let M := dropQuery c L
    if (M.dock q.pos).link = .ready then tap g q.pos c M else M
  | none => L

/-! ## Buttons (R36, R87, R159, R160) -/

/-- MARK FAULT offered for a bike, with the present minute and the station number, 0 while unset (R31, R190). -/
def offerMark (g : Setup) (p : Pos) (b : BikeId) (i : Issuer) (L : Live) : Live :=
  (offer p (.markFault b L.clock.minute (g.station.getD 0)) i L).2

/-- A BUTTON within a settlement window (R87). -/
def windowButton (g : Setup) (p : Pos) (s : Slot) (L : Live) : Live :=
  if s.window = .running then
    let L := updDock g p (fun d => { d with slot := some { s with window := .reported } }) L
    let L := offerMark g p s.bike .hireEngine L
    let L := openFault g .bikeReported (.bike s.bike) (.bikeReport p true) L
    placeMessage p .reportTaken L
  else placeMessage p .reportTaken L

/-- A BUTTON outside a window (R159, R160). MARK FAULT is offered at every BUTTON that the list takes in, a repeat at the
same dock among them (log 77). -/
def outsideButton (g : Setup) (p : Pos) (L : Live) : Live :=
  match (L.dock p).tag with
  | some t =>
    let stored := faultHasPlace L .bikeReported (.bike t.bike)
    let M := openFault g .bikeReported (.bike t.bike) (.bikeReport p false) L
    let M := if stored ∧ t.mark = none then offerMark g p t.bike .faultUnit M else M
    placeMessage p .reportTaken M
  | none => placeMessage p .reportTaken (openAt g .dockReported p L)

/-- The fault button (R36). -/
def button (g : Setup) (p : Pos) (L : Live) : Live :=
  match (L.dock p).slot with
  | some s => if s.window = .running ∨ s.window = .reported then windowButton g p s L else outsideButton g p L
  | none => outsideButton g p L

/-! ## Outcomes of commands (R12, R29–R32, R65, R74, R91, R139) -/

/-- The outcomes of a command (R12). -/
inductive Outcome where
  | answered (a : CommandAnswer)
  | notSent
  | noAnswer
deriving DecidableEq, Repr

/-- The latch set at an UNLATCH outcome (R29). -/
def setLatch (g : Setup) (p : Pos) (l : Latch) (L : Live) : Live := updDock g p (fun d => { d with latch := some l }) L

/-- The outcome of a rider UNLATCH (R74). At TAG FAIL and JAMMED the claim is dropped, and the writers waiting for its room
are served, before the fault is opened (R121; log 69). -/
def riderOutcome (g : Setup) (p : Pos) (r : Release) (o : Outcome) (L : Live) : Live :=
  match o with
  | .answered .accepted => placeMessage p .released (setLatch g p .opened L)
  | .answered .tagFail =>
    placeMessage p .bikeFaulty
      (openAt g .tagFault p (releaseFails g r (.refused .bikeFaulty) (setLatch g p .held L)))
  | .answered .jammed => openAt g .latchJam p (releaseFails g r (.refused .dockOutOfService) (setLatch g p .held L))
  | .notSent => placeMessage p .stationBusy (releaseFails g r (.refused .stationBusy) (setLatch g p .held L))
  | .noAnswer => setLatch g p .uncertain L
  | .answered _ => L

/-- The outcome of a crew UNLATCH (R139, R144). -/
def crewOutcome (g : Setup) (p : Pos) (o : Outcome) (L : Live) : Live :=
  match o with
  | .answered .accepted => placeMessage p .crewOk (setLatch g p .opened L)
  | .answered .jammed => openAt g .latchJam p (endCrew p (setLatch g p .held L))
  | .notSent => placeMessage p .stationBusy (endCrew p (setLatch g p .held L))
  | .noAnswer => setLatch g p .uncertain L
  | .answered _ => L

/-- The outcome of an UNLATCH, to the job that issued it (R29). -/
def unlatchOutcome (g : Setup) (p : Pos) (o : Outcome) (L : Live) : Live :=
  match findRelease L p with
  | some r => riderOutcome g p r o L
  | none => if (findCrew L p).isSome then crewOutcome g p o L else L

/-- On DONE the dock table writes the new stamp state into the snapshot (R30); a snapshot that does not show the OPEN stamp
of the command, an UNREAD one among them, stays as it is (log 70). -/
def closeSnapshot (g : Setup) (p : Pos) (b : BikeId) (start : Minute) (close : Option Minute) (L : Live) : Live :=
  if (L.dock p).holdsStamp b start then
    match (L.dock p).tag with
    | some t =>
      match openStamp? t.stamp, close with
      | some s, some m => updDock g p (fun d => { d with snapshot := some (.read { t with stamp := .closed s m }) }) L
      | some _, none => updDock g p (fun d => { d with snapshot := some (.read { t with stamp := .none }) }) L
      | none, _ => L
    | none => L
  else L

/-- The outcome of CLOSE STAMP on its entry (R91). -/
def closeOutcome (g : Setup) (p : Pos) (b : BikeId) (start : Minute) (close : Option Minute) (o : Outcome) (L : Live) :
    Live :=
  match o with
  | .answered .done => leaveClosing g b start (closeSnapshot g p b start close L)
  | .answered .tagFail =>
    match findClosing L b start with
    | none => L
    | some e =>
      if e.tries + 1 < Config.closeTries then
        offerClose b start (updClosing b start (fun e => { e with tries := e.tries + 1 }) L)
      else
        openAt g .tagFault p
          (updClosing b start (fun e => { e with tries := Config.closeTries, state := .stopped, retry := none }) L)
  | .answered .noMatch | .notSent | .noAnswer =>
    updClosing b start (fun e => { e with state := .away, retry := none }) L
  | .answered _ => L

/-- The outcome of MARK FAULT (R31, R149): a DONE adds the mark to the snapshot; one that does not show the bike of the command,
an UNREAD one among them, stays as it is (log 70). -/
def markOutcome (g : Setup) (p : Pos) (b : BikeId) (m : Minute) (station : Nat) (o : Outcome) (L : Live) : Live :=
  match o, (L.dock p).tag with
  | .answered .done, some t =>
    if t.bike = b then
      dropPickup g p
        (updDock g p
          (fun d => { d with snapshot := some (.read { t with mark := some { minute := m, station := station } }) }) L)
    else L
  | _, _ => L

/-- The outcome of LAMP (R32): a DONE writes the lamp field, and the lamp due is checked again. -/
def lampOutcome (p : Pos) (l : Lamp) (o : Outcome) (L : Live) : Live :=
  match o with
  | .answered .done => checkLamp p (noteDock p (fun d => { d with lamp := some l }) L)
  | _ => L

/-- A command's outcome goes through the dock table to its issuer (R12). PASS ANSWER ends the card list unit's part
(R65). -/
def outcome (g : Setup) (e : QueueEntry) (o : Outcome) (L : Live) : Live :=
  match e.command with
  | .unlatch _ _ => unlatchOutcome g e.pos o L
  | .closeStamp b start close => closeOutcome g e.pos b start close o L
  | .markFault b m station => markOutcome g e.pos b m station o L
  | .lamp l => lampOutcome e.pos l o L
  | .passAnswer _ _ => L

/-- The answers a node gives to a command (R29–R32, R43). -/
def answers (c : NodeCommand) (a : CommandAnswer) : Bool :=
  match c, a with
  | .unlatch _ _, .accepted | .unlatch _ _, .jammed => true
  | .unlatch s _, .tagFail => s.isSome
  | .closeStamp _ _ _, .done | .closeStamp _ _ _, .noMatch | .closeStamp _ _ _, .tagFail => true
  | .markFault _ _ _, .done | .markFault _ _ _, .noMatch | .markFault _ _ _, .tagFail => true
  | .lamp _, .done => true
  | .passAnswer _ _, .done => true
  | _, _ => false

end Sys2Proof.Machine
end

