-- ==== Sys2Proof/Machine/Docks.lean ====
section
/-! DEFINITION. The dock table (chapter 2): node events, IDENTIFY answers, link changes; UNCERTAIN latches settled (R79,
R144); PASS HELD (R63–R65); kiosk enablement (R23). -/

namespace Sys2Proof.Machine

/-! ## Departures and arrivals -/

/-- A departure from a HELD latch (R34): EMPTY, BIKE MOVE UNACCOUNTED, a pickup reservation given up (R149), a slot
whose window runs settled (R88), its HIRE END after the BIKE MOVE (log 61). -/
def departure (g : Setup) (p : Pos) (L : Live) : Live :=
  let bike := (L.dock p).bike
  settleOpen g p (dropPickup g p (bikeMove p .unaccounted bike (emptyLatch g p L)))

/-- A bike in an EMPTY latch (R33): HELD, the counter, and the arrival with the fill state before it. -/
def arriveEmpty (g : Setup) (p : Pos) (snap : Snapshot) (L : Live) : Live :=
  let fill := L.fillState
  let L :=
    updDock g p (fun d => { d with latch := some .held, snapshot := some snap, lastBikeIn := some L.clock.minute }) L
  arrival g p snap fill (transition g p L)

/-- Both snapshots are READ and name the same bike (R33, R40). -/
def sameBike : Option Snapshot → Snapshot → Bool
  | some (.read a), .read b => a.bike = b.bike
  | _, _ => false

/-- The snapshot of the same bike replaced: a mark gives up a pickup (R149), an OPEN stamp may be a resighting (R91). -/
def refreshSnapshot (g : Setup) (p : Pos) (snap : Snapshot) (L : Live) : Live :=
  let L := updDock g p (fun d => { d with snapshot := some snap }) L
  match snap with
  | .read t => resight t (if t.mark.isSome then dropPickup g p L else L)
  | .unread => L

/-- A bike reported where the record holds one: refreshed, or a departure and an arrival (R33, R40). -/
def meetHeld (g : Setup) (p : Pos) (snap : Snapshot) (L : Live) : Live :=
  if sameBike (L.dock p).snapshot snap then refreshSnapshot g p snap L else arriveEmpty g p snap (departure g p L)

/-- BIKE IN (R33). -/
def bikeIn (g : Setup) (p : Pos) (snap : Snapshot) (L : Live) : Live :=
  match (L.dock p).latch with
  | some .empty => arriveEmpty g p snap L
  | some .held => meetHeld g p snap L
  | some .unlatching | some .opened => openAt g .readerFault p L
  | _ => L

/-! ## TAKEN and RELATCHED (R34, R35, R75, R76) -/

/-- TAKEN in OPEN, to the job that issued the UNLATCH (R34). A crew action ends whole, FAULT CLEARED and VAN VISIT
included, before the slot that departs with its bike is settled (log 61). -/
def takenOpen (g : Setup) (p : Pos) (L : Live) : Live :=
  let bike := (L.dock p).bike
  let L := emptyLatch g p L
  match findRelease L p with
  | some r => releaseTaken r false L
  | none =>
    match findCrew L p with
    | some c => settleOpen g p (crewTaken g p c bike L)
    | none => L

/-- The latch becomes HELD with the snapshot read after relatching, a transition into HELD (R35, R173). A mark on it, or
another bike's ID in place of the one read before, gives up a pickup (R142, R149); an UNREAD snapshot names no bike. -/
def relatch (g : Setup) (p : Pos) (snap : Snapshot) (L : Live) : Live :=
  let gone :=
    match snap with
    | .read t => t.mark.isSome || (L.dock p).bike.any (· ≠ t.bike)
    | .unread => false
  let L := updDock g p (fun d => { d with latch := some .held, snapshot := some snap }) L
  transition g p (if gone then dropPickup g p L else L)

/-- The snapshot still holds the release's stamp in state OPEN (R76, R79). -/
def stillStamped (r : Release) : Snapshot → Bool
  | .read t =>
    match openStamp? t.stamp with
    | some s => t.bike = r.bike && s.start = r.stamp.start
    | none => false
  | .unread => false

/-- RELATCHED in OPEN (R35, R76, R142). -/
def relatchedOpen (g : Setup) (p : Pos) (snap : Snapshot) (L : Live) : Live :=
  let L := relatch g p snap L
  match findRelease L p with
  | some r =>
    let L := releaseFails g r .notTaken L
    if stillStamped r snap then makeClearing r.bike r.stamp.start p L else L
  | none => endCrew p L

/-- An UNLATCH whose end a node event has told is no longer queued or awaiting resending (log 21). -/
def forgetUnlatch (p : Pos) (L : Live) : Live :=
  updArm (armOf p)
    (fun r =>
      { r with
        queue := r.queue.filter fun e => !e.unlatches p
        resend := match r.resend with
          | some s => if s.entry.unlatches p then none else some s
          | none => none })
    L

/-- The UNLATCH taken as answered ACCEPTED because its end was reported (R34, R35). -/
def impliedAccepted (g : Setup) (p : Pos) (L : Live) : Live :=
  unlatchOutcome g p (.answered .accepted) (forgetUnlatch p L)

/-- TAKEN (R34). -/
def taken (g : Setup) (p : Pos) (L : Live) : Live :=
  match (L.dock p).latch with
  | some .opened => takenOpen g p L
  | some .unlatching => takenOpen g p (impliedAccepted g p L)
  | some .held => departure g p L
  | _ => L

/-- RELATCHED (R35). -/
def relatched (g : Setup) (p : Pos) (snap : Snapshot) (L : Live) : Live :=
  match (L.dock p).latch with
  | some .opened => relatchedOpen g p snap L
  | some .unlatching => relatchedOpen g p snap (impliedAccepted g p L)
  | _ => L

/-! ## PASS HELD (R63–R65) -/

/-- PASS ANSWER offered to the kiosk's arm; no copy is kept of a refused offer (R65). -/
def answerPass (p : Pos) (c : CardId) (a : PassReply) (L : Live) : Live := (offer p (.passAnswer c a) .cardUnit L).2

/-- A repeat of a report that was taken before (R63). -/
def passRepeat (L : Live) (p : Pos) (c : CardId) (session : Nat) : Bool :=
  match findCard L.cards c with
  | some r => r.role = .pass && r.source = .kiosk p session
  | none => false

/-- The first check of R63 that fails, or none. -/
def passRefusal (L : Live) (p : Pos) (c : CardId) : Option PassReply :=
  if L.power.state ≠ .run ∨ !L.clock.valid then some .stationClosed
  else if !startClassRoom L then some .stationBusy
  else if Config.cardListSize ≤ L.cards.length then some .cardListFull
  else if (findCard L.cards c).isSome then some .duplicate
  else if excess L p then some .kioskExcess
  else none

/-- The record of a new pass (R64). -/
def passRecord (L : Live) (p : Pos) (c : CardId) (plan : PlanClass) (hold : Money) (validity session : Nat) : CardRec :=
  { card := c, role := .pass, plan := plan, allowance := 1, outCount := 0, status := .good
    expiry := some (min Config.maxU32 (L.clock.minute + clamp 60 10080 validity))
    holdIssued := hold, holdRemaining := hold, source := .kiosk p session, closure := none }

/-- The creation of a pass (R64). -/
def createPass (g : Setup) (p : Pos) (r : CardRec) (session : Nat) (L : Live) : Live :=
  let L := { L with cards := insertCard r L.cards }
  let L := append (now L) (.card r.card) (.passIssued r.plan r.holdIssued (r.expiry.getD 0) p session) L
  answerPass p r.card .passOk (answerQuery g r.card L)

/-- PASS HELD from a kiosk (R63). -/
def passHeld (g : Setup) (p : Pos) (c : CardId) (plan : PlanClass) (hold : Money) (validity session : Nat) (L : Live) :
    Live :=
  if passRepeat L p c session then answerPass p c .passOk L
  else
    match passRefusal L p c with
    | some a => answerPass p c a L
    | none => createPass g p (passRecord L p c plan hold validity session) session L

/-! ## Node events (R33–R37, R43) -/

/-- One event from a dock. -/
def dockEvent (g : Setup) (p : Pos) (e : NodeEvent) (L : Live) : Live :=
  match e with
  | .bikeIn s => bikeIn g p s L
  | .taken => taken g p L
  | .relatched s => relatched g p s L
  | .tap c => tap g p c L
  | .button => button g p L
  | .latchJam => openAt g .latchJam p L
  | .readerFault => openAt g .readerFault p L
  | .tagFail => openAt g .tagFault p L
  | .passHeld _ _ _ _ _ => openAt g .readerFault p L

/-- One event from a kiosk; those a kiosk does not report open READER FAULT (R37, R43). -/
def kioskEvent (g : Setup) (p : Pos) (e : NodeEvent) (L : Live) : Live :=
  match e with
  | .passHeld c plan hold validity session => passHeld g p c plan hold validity session L
  | _ => openAt g .readerFault p L

/-- One event applied to the record as it stands, and handed to its owner (R14, section 2.4). -/
def nodeEvent (g : Setup) (p : Pos) (e : NodeEvent) (L : Live) : Live :=
  match (L.dock p).kind with
  | some .dock => dockEvent g p e L
  | some .kiosk => kioskEvent g p e L
  | none => L

/-! ## UNCERTAIN latches settled (R79, R80, R144) -/

/-- An UNCERTAIN release settled as TAKEN (R79). -/
def uncertainTaken (g : Setup) (r : Release) (L : Live) : Live := releaseTaken r true (emptyLatch g r.pos L)

/-- An UNCERTAIN release settled as RELATCHED, with a clearing entry where one is called for (R79). -/
def uncertainKept (g : Setup) (r : Release) (snap : Snapshot) (clear : Bool) (L : Live) : Live :=
  let L := releaseFails g r .notTaken (relatch g r.pos snap L)
  if clear then makeClearing r.bike r.stamp.start r.pos L else L

/-- An UNCERTAIN release settled by its dock's IDENTIFY snapshot (R79). -/
def settleRelease (g : Setup) (r : Release) (snap : Option Snapshot) (L : Live) : Live :=
  match snap with
  | none => uncertainTaken g r L
  | some .unread => uncertainKept g r .unread true L
  | some (.read t) =>
    if t.bike = r.bike then uncertainKept g r (.read t) (stillStamped r (.read t)) L
    else arriveEmpty g r.pos (.read t) (uncertainTaken g r L)

/-- An UNCERTAIN crew action settled as TAKEN (R144). -/
def crewUncertainTaken (g : Setup) (c : CrewAction) (L : Live) : Live :=
  settleOpen g c.pos (crewTaken g c.pos c c.bike (emptyLatch g c.pos L))

/-- An UNCERTAIN crew action settled as RELATCHED (R144). -/
def crewUncertainKept (g : Setup) (c : CrewAction) (snap : Snapshot) (L : Live) : Live :=
  endCrew c.pos (relatch g c.pos snap L)

/-- An UNCERTAIN crew action settled by its dock's IDENTIFY snapshot (R144). An action whose bike was UNREAD takes the
bike reported as its own (log 54). -/
def settleCrew (g : Setup) (c : CrewAction) (snap : Option Snapshot) (L : Live) : Live :=
  match snap with
  | none => crewUncertainTaken g c L
  | some .unread => crewUncertainKept g c .unread L
  | some (.read t) =>
    if c.bike.all (· = t.bike) then crewUncertainKept g c (.read t) L
    else arriveEmpty g c.pos (.read t) (crewUncertainTaken g c L)

/-- The latch taken from a snapshot: HELD with it, EMPTY without one (R39). -/
def latchFrom (g : Setup) (p : Pos) (snap : Option Snapshot) (L : Live) : Live :=
  updDock g p
    (fun d =>
      { d with
        latch := some (if snap.isSome then .held else .empty)
        snapshot := snap, lastBikeIn := none })
    L

/-- An UNCERTAIN latch settled by an IDENTIFY snapshot with activity IDLE (R41). -/
def settleUncertain (g : Setup) (p : Pos) (snap : Option Snapshot) (L : Live) : Live :=
  match findRelease L p with
  | some r => settleRelease g r snap L
  | none =>
    match findCrew L p with
    | some c => settleCrew g c snap L
    | none => latchFrom g p snap L

/-! ## IDENTIFY answers (R39–R42) -/

/-- Kind, serial and lamp stored from an IDENTIFY answer (R39). -/
def storeIdentity (g : Setup) (p : Pos) (k : NodeKind) (a : IdentifyAnswer) (L : Live) : Live :=
  updDock g p (fun d => { d with kind := some k, serial := some a.serial, lamp := some a.lamp }) L

/-- The identity stored and the resting code placed (R39, R45), before the snapshot is acted on, so that a RETURN OK which
the snapshot brings stands after it as a message (R92; log 55). It replaces a message that was pending at a LOST or DARK
dock, the CARD UNKNOWN of R60 among them (log 71). -/
def noteIdentity (g : Setup) (p : Pos) (k : NodeKind) (a : IdentifyAnswer) (L : Live) : Live :=
  placeChosen p (storeIdentity g p k a L)

/-- A first identification of a dock (R39, R92). -/
def firstIdentification (g : Setup) (p : Pos) (snap : Option Snapshot) (L : Live) : Live :=
  initialSnapshot g p snap L.fillState (latchFrom g p snap L)

/-- The comparison of a kept and a reported snapshot (R40). -/
def compareSnapshots (g : Setup) (p : Pos) (snap : Option Snapshot) (L : Live) : Live :=
  match (L.dock p).latch, snap with
  | some .held, some s => meetHeld g p s L
  | some .held, none => departure g p L
  | _, some s => arriveEmpty g p s L
  | _, none => L

/-- A dock identified while an unlatch was in flight (R41). -/
def recoverUnlatch (g : Setup) (p : Pos) (act : Activity) (snap : Option Snapshot) (L : Live) : Live :=
  match act with
  | .window => setLatch g p .opened L
  | .idle => settleUncertain g p snap (setLatch g p .uncertain L)

/-- The kept contents dropped (R42): a HELD bike departs, an UNCERTAIN latch keeps its state and snapshot. -/
def dropContents (g : Setup) (p : Pos) (L : Live) : Live :=
  let L := if (L.dock p).latch = some .held then departure g p L else L
  updDock g p
    (fun d =>
      let pending := d.latch = some .uncertain || d.latch = some .opened || d.latch = some .unlatching
      { d with
        kind := none, serial := none, lamp := none, lastBikeIn := none, code := none, reservation := .none
        lastResting := none, replaced := none
        latch := if pending then some .uncertain else none
        snapshot := if pending then d.snapshot else none })
    L

/-- The dock table acts on a dock's IDENTIFY answer by the record it held before (R39). A latch kept UNCERTAIN is
settled whatever the kind was (R78, log 27). -/
def identifyDock (g : Setup) (p : Pos) (a : IdentifyAnswer) (act : Activity) (snap : Option Snapshot) (L : Live) :
    Live :=
  let L := if (L.dock p).kind = some .kiosk then dropContents g p L else L
  match (L.dock p).kind, (L.dock p).latch with
  | _, some .uncertain => recoverUnlatch g p act snap (noteIdentity g p .dock a L)
  | some .dock, some .unlatching | some .dock, some .opened =>
    recoverUnlatch g p act snap (noteIdentity g p .dock a L)
  | some .dock, some .held | some .dock, some .empty => compareSnapshots g p snap (noteIdentity g p .dock a L)
  | _, _ => firstIdentification g p snap (noteIdentity g p .dock a L)

/-- The dock table acts on a kiosk's IDENTIFY answer (R39, R42, R162). -/
def identifyKiosk (g : Setup) (p : Pos) (a : IdentifyAnswer) (L : Live) : Live :=
  if (L.dock p).kind = some .dock then noteIdentity g p .kiosk a (unbarPosition g p (dropContents g p L))
  else noteIdentity g p .kiosk a L

/-- The enabled kiosks recomputed around a change (R23): KIOSK EXCESS for a kiosk made excess, its FAULT OPENED after the records
that the change itself writes (log 80), resting codes of kiosks refreshed (R45). -/
def withKiosks (g : Setup) (f : Live → Live) (L : Live) : Live :=
  let M := f L
  let made := allPos.filter fun p => excess M p && !excess L p
  refreshCodes (allPos.filter (knownKiosk M)) (made.foldl (fun N p => openAt g .kioskExcess p N) M)

/-- The kind a node reports in its IDENTIFY answer (R4). -/
def reportedKind (a : IdentifyAnswer) : NodeKind :=
  match a.report with
  | .dock _ _ => .dock
  | .kiosk => .kiosk

/-- The answer comes from the node last identified at the position: kind and serial are the record's (R3). A record whose
identity was dropped (R42) holds none, so every answer there comes from another node (log 7). -/
def sameNode (d : DockRec) (a : IdentifyAnswer) : Bool := d.kind = some (reportedKind a) && d.serial = some a.serial

/-- A position becomes READY at an IDENTIFY answer (R6, R16): link, misses, switch record, NODE LOST cleared (R168),
and the answer taken by the dock table, the lamp due checked last (R39). A node that is not the one last identified has
given no poll answer yet (R14); a position that became ABSENT in between has no node last identified, so its number
is forgotten there too, whatever node answers (log 7). NODE LOST is cleared before the answer is taken by the dock table
(log 74). -/
def identified (g : Setup) (p : Pos) (a : IdentifyAnswer) (L : Live) : Live :=
  let same := sameNode (L.dock p) a
  let L :=
    updLink p
      (fun l =>
        { misses := 0, switch := a.switch, recovery := .idle, lastAnswer := if same then l.lastAnswer else none })
      L
  let L := updDock g p (fun d => { d with link := .ready }) L
  let L := clearLive g .recovery .nodeLost (.position p) L
  let L :=
    withKiosks g
      (fun M =>
        match a.report with
        | .dock act snap => identifyDock g p a act snap M
        | .kiosk => identifyKiosk g p a M)
      L
  checkLamp p L

/-! ## Link changes (R15, R42) -/

/-- The commands of a position that is no longer in link end: queued ones NOT SENT, one awaiting resending NO ANSWER
(R12, R15). -/
def endCommands (g : Setup) (p : Pos) (L : Live) : Live :=
  let r := L.arm (armOf p)
  let mine := r.queue.filter fun e => e.pos = p
  let sent := r.resend.filter fun s => s.entry.pos = p
  let L :=
    updArm (armOf p)
      (fun r =>
        { r with
          queue := r.queue.filter fun e => e.pos ≠ p
          resend := r.resend.filter fun s => s.entry.pos ≠ p
          repower := r.repower.filter fun k => k ≠ numOf p })
      L
  let L := mine.foldl (fun M e => outcome g e .notSent M) L
  match sent with
  | some s => outcome g s.entry .noAnswer L
  | none => L

/-- A latch in OPEN, or in UNLATCHING with its UNLATCH sent, becomes UNCERTAIN (R42). -/
def loseLatch (g : Setup) (p : Pos) (L : Live) : Live :=
  if (L.dock p).latch = some .opened ∨ (L.dock p).latch = some .unlatching then setLatch g p .uncertain L else L

/-- The link state of a position changed, with its recovery timer. -/
def setLinkState (g : Setup) (p : Pos) (st : LinkState) (rec : Recovery) (L : Live) : Live :=
  updDock g p (fun d => { d with link := st }) (updLink p (fun l => { l with recovery := rec }) L)

/-- A position becomes LOST (R15). -/
def becomeLost (g : Setup) (p : Pos) (L : Live) : Live :=
  openAt g .nodeLost p (loseLatch g p (endCommands g p (setLinkState g p .lost .running L)))

/-- A position becomes DARK (R15, R42). -/
def becomeDark (g : Setup) (p : Pos) (L : Live) : Live :=
  loseLatch g p (endCommands g p (setLinkState g p .dark .idle L))

/-- A position becomes ABSENT, its kept contents dropped (R42). Its miss count stays, as at PROBING (log 16). -/
def becomeAbsent (g : Setup) (p : Pos) (L : Live) : Live :=
  withKiosks g (fun M => dropContents g p (endCommands g p (setLinkState g p .absent .idle M))) L

/-- Beyond a switch held open: DARK with a known node, ABSENT without (R7, R18). -/
def darkOrAbsent (g : Setup) (p : Pos) (L : Live) : Live :=
  if (L.dock p).known then becomeDark g p L else becomeAbsent g p L

end Sys2Proof.Machine
end

