-- ==== Sys2Proof/Machine/Links.lean ====
section
/-! DEFINITION. The rack link controllers (chapter 1): arm states, misses and losses, discovery, diagnosis,
localization, isolation, root opening, arm stop, and the hand-out of transactions. Positions of an arm are the numbers
1 to 16 here. -/

namespace Sys2Proof.Machine

/-! ## Questions -/

/-- The position is READY or SILENT. -/
def answering (L : Live) (a : Arm) (k : Nat) : Bool := (L.dock (posAt a k)).inRotation

/-- The highest READY or SILENT position of an arm, 0 if there is none (R17). -/
def highestAnswering (L : Live) (a : Arm) : Nat := ((allNums.filter (answering L a)).getLast?).getD 0

/-- The nearest READY or SILENT position below t, 0 if there is none (R7, R18). -/
def nearestBelow (L : Live) (a : Arm) (t : Nat) : Nat :=
  ((allNums.filter fun k => k < t && answering L a k).getLast?).getD 0

/-- READY and SILENT positions of an arm (R8). -/
def answeringCount (L : Live) (a : Arm) : Nat := allNums.countP (answering L a)

/-- Some position beyond k answers (R6). -/
def answersBeyond (L : Live) (a : Arm) (k : Nat) : Bool := allNums.any fun i => k < i && answering L a i

/-- The arm is held in service (R186). -/
def heldInService (g : Setup) (L : Live) (a : Arm) : Bool := (L.power.service && (g.arms[a]).service) || L.power.request[a]

/-- The service membership that counts at the end of a full discovery: the arm record's, but for a discovery that a START
step of the arm sequence still in flight began, which goes by the membership the sequence was built with (R1; log 63). -/
def membership (g : Setup) (L : Live) (a : Arm) : Bool :=
  if L.power.sequence ≠ [] ∧ L.power.begun[a] then L.power.members[a] else (g.arms[a]).service

/-- The arm is held in service at the end of its full discovery (R1, R185, R186). -/
def heldAtEnd (g : Setup) (L : Live) (a : Arm) : Bool := (L.power.service && membership g L a) || L.power.request[a]

/-- A localization or an isolation is in progress (R16, R17, R20). -/
def Work.localizing : Work → Bool
  | .locate _ | .locateRoot | .locateProbe _ _ | .isolate _ _ => true
  | _ => false

/-- A walk, localization or isolation is in progress (R9). -/
def ArmRec.busy (r : ArmRec) : Bool := r.discovery.isSome || r.work ≠ .none

/-- The line work of an arm. -/
def setWork (a : Arm) (w : Work) (L : Live) : Live := updArm a (fun r => { r with work := w }) L

/-! ## Arm states (R2, R13, R60, R148, R186) -/

/-- An arm's state changed: the poll pointer cleared out of the active states (R13); query entries and reservations
given up when it leaves RUNNING (R60, R148). -/
def changeArm (g : Setup) (a : Arm) (st : ArmState) (L : Live) : Live :=
  let was := (L.arm a).state
  let L := setArmState g a st L
  let L := if st.active then L else updArm a (fun r => { r with pollPointer := none }) L
  if was = .running then dropReservations g (armPos a) (dropArmQueries a L) else L

/-- An arm enters SERVICE (R186, R77, R143): lamps and resting codes, then riders' and crews' withdrawals (log 84). -/
def enterService (g : Setup) (a : Arm) (L : Live) : Live :=
  let L := refreshNodes (armPos a) (changeArm g a .service L)
  withdrawCrews g .dockOutOfService (armPos a) (withdrawReleases g .dockOutOfService (armPos a) L)

/-- An arm leaves SERVICE for RUNNING (R186). -/
def leaveService (g : Setup) (a : Arm) (L : Live) : Live := refreshNodes (armPos a) (changeArm g a .running L)

/-- The holding of R186 applied to an arm. -/
def applyHolding (g : Setup) (a : Arm) (L : Live) : Live :=
  match (L.arm a).state with
  | .running => if heldInService g L a then enterService g a L else L
  | .service => if heldInService g L a then L else leaveService g a L
  | _ => L

/-! ## Root opening and arm stop (R19, R21) -/

/-- A poll that got no answer: its code is put back unless a newer one has been placed (R13). -/
def putBack (p : Pos) (code : Option (DisplayCode × CodeSort)) (replaced : Option DisplayCode) (L : Live) : Live :=
  noteDock p (fun d => if d.code.isNone then { d with code := code, replaced := replaced } else d) L

/-- Positions of an arm from k up become DARK where their node is known and ABSENT otherwise (R7, R18, R19). -/
def darkFrom (g : Setup) (a : Arm) (k : Nat) (L : Live) : Live :=
  (allNums.filter fun i => k ≤ i).foldl (fun M i => darkOrAbsent g (posAt a i) M) L

/-- Positions of an arm from k up become ABSENT (R7), in ascending order (log 73). -/
def absentFrom (g : Setup) (a : Arm) (k : Nat) (L : Live) : Live :=
  (allNums.filter fun i => k ≤ i).foldl (fun M i => becomeAbsent g (posAt a i) M) L

/-- Switch records OPEN and recovery timers stopped along an arm (R19). -/
def resetSwitches (a : Arm) (L : Live) : Live :=
  (armPos a).foldl (fun M p => updLink p (fun l => { l with switch := .opened, recovery := .idle }) M) L

/-- What the transaction in progress leaves behind when a root opening cuts it off: a poll's code, a command without
answer. No answer to it is taken any more (log 57). -/
def cutTxn (g : Setup) (a : Arm) (t : Option Txn) (L : Live) : Live :=
  match t with
  | some (.poll k code rep _) => putBack (posAt a k) code rep L
  | some (.command s) => outcome g s.entry .noAnswer L
  | _ => L

/-- The changes of a root opening (R19): root switch open, line work abandoned, commands ended, positions DARK, switch
records OPEN, recovery timers stopped. -/
def rootChanges (g : Setup) (a : Arm) (L : Live) : Live :=
  let r := L.arm a
  let L :=
    updArm a
      (fun r =>
        { r with
          rootClosed := false, queue := [], txn := none, resend := none, discovery := none, work := .none
          repower := [], stopWaits := false, pollPointer := none })
      L
  let L := cutTxn g a r.txn L
  let L := r.queue.foldl (fun M e => outcome g e .notSent M) L
  let L := match r.resend with
    | some s => outcome g s.entry .noAnswer L
    | none => L
  resetSwitches a (darkFrom g a 1 L)

/-- A root opening (R19), as a second line fault or not (R20). -/
def rootOpening (g : Setup) (a : Arm) (second : Bool) (L : Live) : Live :=
  rootChanges g a (updArm a (fun r => { r with secondFault := second }) (changeArm g a .stopping L))

/-- An arm stop (R21): STOPPING at once, line work abandoned, the changes of a root opening after the transaction in
progress (log 14). The nodes still in rotation until then take the resting code of an arm that left SERVICE (R45). -/
def armStop (g : Setup) (a : Arm) (L : Live) : Live :=
  let L :=
    updArm a (fun r => { r with discovery := none, work := .none, repower := [], secondFault := false })
      (changeArm g a .stopping L)
  if (L.arm a).txn.isSome then refreshNodes (armPos a) (updArm a (fun r => { r with stopWaits := true }) L)
  else rootChanges g a L

/-- The end of the transaction an arm stop waited for (R21). A query that its last events started is removed like the
others of the arm (R60). -/
def afterTxn (g : Setup) (a : Arm) (L : Live) : Live :=
  if (L.arm a).state = .stopping ∧ (L.arm a).stopWaits ∧ (L.arm a).txn = none then
    rootChanges g a (dropArmQueries a L)
  else L

/-! ## Ends of discoveries and localizations (R8, R17) -/

/-- ARM SHORTFALL where fewer positions answer than expected (R8). -/
def shortfallTest (g : Setup) (a : Arm) (L : Live) : Live :=
  if answeringCount L a < (g.arms[a]).expected then
    openFault g .armShortfall (.arm a) (.positionsFound (answeringCount L a)) L
  else L

/-- The holding of R186 at the end of a discovery, with the ARM CHANGE of that end, raised once for both (R2, R8): a full
discovery's arm becomes SERVICE or RUNNING by the membership that counts (log 63), an extension's arm goes by the records. -/
def holdAtEnd (g : Setup) (a : Arm) (L : Live) : Live :=
  match (L.arm a).state with
  | .starting => if heldAtEnd g L a then enterService g a L else changeArm g a .running L
  | .running => if heldInService g L a then enterService g a L else raise .armChange L
  | .service => if heldInService g L a then raise .armChange L else leaveService g a L
  | .off | .stopping | .failed => raise .armChange L

/-- The end of a discovery, full or an extension (R8): the holding applied with ARM CHANGE (R2, R186), ARM SHORTFALL
tested. -/
def endDiscovery (g : Setup) (a : Arm) (L : Live) : Live :=
  shortfallTest g a (holdAtEnd g a (updArm a (fun r => { r with discovery := none, work := .none }) L))

/-- The end of a localization (R17), which ends the discovery it interrupted. -/
def endLocalization (g : Setup) (a : Arm) (L : Live) : Live :=
  if (L.arm a).discovery.isSome then endDiscovery g a L else raise .armChange (setWork a .none L)

/-- The end of an isolation, and of the localization or discovery it belongs to. -/
def endIsolation (g : Setup) (a : Arm) (localization : Bool) (L : Live) : Live :=
  if localization then endLocalization g a L else endDiscovery g a L

/-- An isolation begins with its target at t, or the root opening where no position remains (R18). -/
def beginIsolation (g : Setup) (a : Arm) (t : Nat) (localization : Bool) (L : Live) : Live :=
  if t = 0 then rootOpening g a false L else setWork a (.isolate t localization) L

/-! ## Misses and losses (R15, R17, R20) -/

/-- A localization begins at diagnosis point j (R17). The position that the walk was probing becomes LOST or ABSENT; it
counts as no second line fault (log 46). -/
def beginLocalization (g : Setup) (a : Arm) (j : Nat) (L : Live) : Live :=
  let w := (L.arm a).work
  let L := setWork a (if j = 0 then .locateRoot else .locate j) L
  let yield := fun (k : Nat) (st : LinkState) =>
    let p := posAt a k
    if (L.dock p).link = st then if (L.dock p).known then becomeLost g p L else becomeAbsent g p L else L
  match w with
  | .probe k _ => yield k .probing
  | .diagnose k => yield k .dark
  | _ => L

/-- The walk sends IDENTIFY to position k (R6). -/
def startProbe (g : Setup) (a : Arm) (k : Nat) (L : Live) : Live :=
  setWork a (.probe k 0) (setLinkState g (posAt a k) .probing .idle L)

/-- The localization test of R17, made when position k became LOST and nothing of the kind is in progress. -/
def localizationTest (g : Setup) (a : Arm) (k : Nat) (L : Live) : Live :=
  let j := highestAnswering L a
  if j < 16 ∧ (L.dock (posAt a (j + 1))).link = .lost then beginLocalization g a j L
  else
    match (L.arm a).work with
    | .diagnose n => if n = k + 1 then beginLocalization g a j L else L
    | .feed n => if n = k + 1 then startProbe g a n L else L
    | _ => L

/-- The diagnosis point of the arm's localization at the highest position that answers, or at the root (R17). -/
def locateHighest (a : Arm) (L : Live) : Live :=
  let n := highestAnswering L a
  setWork a (if n = 0 then .locateRoot else .locate n) L

/-- What the loss of position k does to the arm's line work (R17, R20). -/
def afterLoss (g : Setup) (a : Arm) (k : Nat) (L : Live) : Live :=
  if !(L.arm a).state.active then L
  else
    match (L.arm a).work with
    | .isolate t _ => if k < t then rootOpening g a true L else L
    | .locate j | .locateProbe j _ =>
      if k < j then rootOpening g a true L
      else if k = j then locateHighest a L
      else L
    | .locateRoot => L
    | _ => localizationTest g a k L

/-- A missed answer (R15). -/
def countMiss (g : Setup) (a : Arm) (k : Nat) (L : Live) : Live :=
  let p := posAt a k
  if answering L a k then
    let m := (L.link p).misses + 1
    let L := updLink p (fun l => { l with misses := m }) L
    if m < Config.missesToLost then
      if (L.dock p).link = .ready then updDock g p (fun d => { d with link := .silent }) L else L
    else afterLoss g a k (becomeLost g p L)
  else L

/-- An answer of a READY or SILENT node (R15): misses at 0, and READY. A NODE LOST record is cleared where a position
becomes READY at an IDENTIFY answer (R168), so none is live here. -/
def answered (g : Setup) (p : Pos) (L : Live) : Live :=
  let L := updLink p (fun l => { l with misses := 0 }) L
  if (L.dock p).link = .silent then updDock g p (fun d => { d with link := .ready }) L else L

/-! ## Discovery (R5–R7) -/

/-- The walk goes on from position k, passing what answers (R5, R6). -/
def walkFrom (g : Setup) (a : Arm) : Nat → Nat → Live → Live
  | 0, _, L => endDiscovery g a L
  | n + 1, k, L =>
    if 16 < k then endDiscovery g a L
    else if answering L a k then walkFrom g a n (k + 1) L
    else if k = 1 ∨ !answering L a (k - 1) ∨ (L.link (posAt a (k - 1))).switch = .closed then startProbe g a k L
    else setWork a (.feed k) L

/-- The walk from position k on. -/
def walk (g : Setup) (a : Arm) (k : Nat) (L : Live) : Live := walkFrom g a 17 k L

/-- A discovery begins on the arm: its shed mark is cleared (R183), and the discovery is no START step's unless the step
says so (R185). -/
def clearMark (a : Arm) (L : Live) : Live :=
  { L with power :=
      { L.power with
        shedMark := upd L.power.shedMark a fun _ => false, begun := upd L.power.begun a fun _ => false } }

/-- A full discovery begins on an OFF arm (R5): STARTING, every position that is not DARK ABSENT, the root closed. -/
def startFull (g : Setup) (a : Arm) (L : Live) : Live :=
  let L := changeArm g a .starting (clearMark a L)
  let L := (armPos a).foldl (fun M p => if (M.dock p).link = .dark then M else becomeAbsent g p M) L
  updArm a
    (fun r => { r with rootClosed := true, discovery := some .full, work := .waitSlot 1, secondFault := false }) L

/-- An extension begins on a RUNNING arm (R5). -/
def startExtension (g : Setup) (a : Arm) (L : Live) : Live :=
  walk g a 1 (updArm a (fun r => { r with discovery := some .extended }) (clearMark a L))

/-- The walk ends at k and the diagnosis of R7 follows; no IDENTIFY is sent to k any more, and it is PROBING no longer
(R3; log 58). Where the node at k−1 does not answer either, it is the localization at the highest answering position
(log 18). -/
def beginDiagnosis (g : Setup) (a : Arm) (k : Nat) (L : Live) : Live :=
  if k = 1 then setWork a .diagnoseRoot (darkOrAbsent g (posAt a k) L)
  else if answering L a (k - 1) then setWork a (.diagnose k) (darkOrAbsent g (posAt a k) L)
  else beginLocalization g a (highestAnswering L a) L

/-- A probed position judged after its tries (R6). -/
def judge (g : Setup) (a : Arm) (k : Nat) (L : Live) : Live :=
  if answersBeyond L a k then
    let p := posAt a k
    let L := if (L.dock p).known then afterLoss g a k (becomeLost g p L) else becomeAbsent g p L
    match (L.arm a).work with
    | .probe _ _ => walk g a (k + 1) L
    | _ => L
  else beginDiagnosis g a k L

/-- The outcome of a diagnosis at the node k−1 (R7). -/
def diagnose (g : Setup) (a : Arm) (k : Nat) (switch : Switch) (sense : Sense) (L : Live) : Live :=
  let p := posAt a k
  match switch, sense with
  | .closed, .noLoad | .opened, .noLoad | .opened, .load => endDiscovery g a (absentFrom g a k L)
  | .closed, .load => beginIsolation g a (k - 1) false (openAt g .nodeDead p L)
  | .opened, .overcurrent => endDiscovery g a (darkFrom g a k (openAt g .lineShort p L))
  | .closed, .overcurrent =>
    let L := openAt g .switchStuck (posAt a (k - 1)) (openAt g .lineShort p L)
    beginIsolation g a (nearestBelow L a (k - 1)) false L

/-- The outcome of a diagnosis at the root, whose switch is closed (R7). -/
def diagnoseRoot (g : Setup) (a : Arm) (sense : Sense) (L : Live) : Live :=
  match sense with
  | .noLoad => endDiscovery g a (absentFrom g a 1 L)
  | .load => rootOpening g a false (openAt g .nodeDead (posAt a 1) L)
  | .overcurrent => rootOpening g a false (openAt g .lineShort (posAt a 1) L)

/-! ## Localization and isolation (R17, R18) -/

/-- The outcome of a localization's report at node j (R17). -/
def locate (g : Setup) (a : Arm) (j : Nat) (switch : Switch) (sense : Sense) (L : Live) : Live :=
  let p := posAt a (j + 1)
  match switch, sense with
  | .opened, .overcurrent => endLocalization g a (darkFrom g a (j + 1) (openAt g .lineShort p L))
  | .opened, .noLoad | .opened, .load => endLocalization g a (darkFrom g a (j + 1) (openAt g .lineOpen p L))
  | .closed, .noLoad => beginIsolation g a j true (openAt g .lineOpen p L)
  | .closed, .load => setWork a (.locateProbe j 0) L
  | .closed, .overcurrent =>
    let L := openAt g .switchStuck (posAt a j) (openAt g .lineShort p L)
    beginIsolation g a (nearestBelow L a j) true L

/-- The outcome of a localization at the root (R17). -/
def locateRoot (g : Setup) (a : Arm) (sense : Sense) (L : Live) : Live :=
  match sense with
  | .noLoad => rootOpening g a false (openAt g .lineOpen (posAt a 1) L)
  | .load => setWork a (.locateProbe 0 0) L
  | .overcurrent => rootOpening g a false (openAt g .lineShort (posAt a 1) L)

/-- The target of an isolation moves down after STUCK or no answer (R18). -/
def moveTarget (g : Setup) (a : Arm) (t : Nat) (localization : Bool) (L : Live) : Live :=
  beginIsolation g a (nearestBelow L a t) localization L

/-! ## The hand-out of transactions (R10–R13) -/

/-- The next message of the line work, unless it waits (R10). -/
def workTxn : Work → Option Txn
  | .feed k => some (.passPower (k - 1))
  | .probe k _ => some (.probe k)
  | .diagnose k => some (.report (k - 1))
  | .locate j => some (.report j)
  | .locateProbe j _ => some (.locProbe (j + 1))
  | .isolate t _ => some (.openSwitch t)
  | .none | .waitSlot _ | .diagnoseRoot | .locateRoot => none

/-- The first class of R10: power owed to a recovered node (R16), then the message of the line work (log 20). -/
def lineTxn (r : ArmRec) : Option Txn :=
  match r.repower with
  | k :: _ => some (.passPower k)
  | [] => workTxn r.work

/-- The LOST position whose recovery probe is handed out next (R10, R16). -/
def recoveryDue (L : Live) (a : Arm) : Option Nat :=
  if (L.arm a).work.localizing then none
  else allNums.find? fun k => (L.dock (posAt a k)).link = .lost && (L.link (posAt a k)).recovery = .due

/-- The position polled next (R13). -/
def nextPoll (L : Live) (a : Arm) : Option Nat :=
  let above := match (L.arm a).pollPointer with
    | some q => allNums.find? fun k => q < k && answering L a k
    | none => none
  match above with
  | some k => some k
  | none => allNums.find? (answering L a)

/-- A poll is sent: the pending display code travels with it (R13), and the number of the last answer taken from the
node, or none (R14). -/
def sendPoll (a : Arm) (k : Nat) (L : Live) : Live :=
  let p := posAt a k
  let d := L.dock p
  noteDock p (fun d => { d with code := none, replaced := none })
    (updArm a (fun r => { r with txn := some (.poll k d.code d.replaced (L.link p).lastAnswer), pollPointer := some k }) L)

/-- A queued command is sent with the arm's next command number (R12). -/
def sendCommand (a : Arm) (e : QueueEntry) (L : Live) : Live :=
  updArm a
    (fun r =>
      { r with
        queue := r.queue.tail, txn := some (.command { entry := e, number := r.nextNumber })
        nextNumber := r.nextNumber + 1 })
    L

/-- A recovery probe is sent (R16). -/
def sendRecovery (a : Arm) (k : Nat) (L : Live) : Live :=
  updArm a (fun r => { r with txn := some (.recovery k) })
    (updLink (posAt a k) (fun l => { l with recovery := .idle }) L)

/-- The next transaction of an idle arm, by the order of R10. -/
def handOut (a : Arm) (L : Live) : Live :=
  if (L.arm a).state.active ∧ (L.arm a).txn = none then
    match lineTxn (L.arm a) with
    | some t => updArm a (fun r => { r with txn := some t }) L
    | none =>
      match (L.arm a).resend with
      | some s => updArm a (fun r => { r with txn := some (.command s), resend := none }) L
      | none =>
        match recoveryDue L a with
        | some k => sendRecovery a k L
        | none =>
          match (L.arm a).queue with
          | e :: _ => sendCommand a e L
          | [] =>
            match nextPoll L a with
            | some k => sendPoll a k L
            | none => L
  else L

/-- Every arm hands out its next transaction where it is idle and has work due (R10). -/
def pump (L : Live) : Live := allArms.foldl (fun M a => handOut a M) L

/-- The transaction in progress ends. -/
def clearTxn (a : Arm) (L : Live) : Live := updArm a (fun r => { r with txn := none }) L

/-! ## Answers (R5, R6, R12, R14, R16–R18) -/

/-- The resting code that a delivered message replaced is placed again (R45; logs 22 and 64). -/
def delivered (p : Pos) (replaced : Option DisplayCode) (L : Live) : Live :=
  match replaced with
  | some c => if (L.dock p).code.isNone then placeResting p c L else L
  | none => L

/-- The events of a poll answer applied in order, the overrun after them (R14). -/
def takeEvents (g : Setup) (p : Pos) (ans : PollAnswer) (L : Live) : Live :=
  let L := ans.events.foldl (fun M e => nodeEvent g p e M) L
  if ans.overrun then openAt g .readerFault p L else L

/-- The answer was taken before: it carries the number of the last answer taken from the node (R14). -/
def answerRepeats (L : Live) (p : Pos) (ans : PollAnswer) : Bool := (L.link p).lastAnswer = some ans.number

/-- An answer's events are taken once, and its number noted (R14; log 7). -/
def takeAnswer (g : Setup) (p : Pos) (ans : PollAnswer) (L : Live) : Live :=
  if answerRepeats L p ans then L
  else takeEvents g p ans (updLink p (fun l => { l with lastAnswer := some ans.number }) L)

/-- A node answers a poll (R13, R14, R15), then the hire engine offers the CLOSE STAMPs that waited for it (R91) and the
dock table LAMP (R32), in that order (log 72). A resting
code that the poll's message had replaced is placed before the answer's events are applied (R45; log 64). -/
def pollAnswered (g : Setup) (a : Arm) (ans : PollAnswer) (L : Live) : Live :=
  match (L.arm a).txn with
  | some (.poll k _ rep _) =>
    let p := posAt a k
    let L := delivered p rep (answered g p (clearTxn a L))
    pump (afterTxn g a (checkLamp p (retryCloses p (takeAnswer g p ans L))))
  | _ => L

/-- A node answers a command (R12). -/
def commandAnswered (g : Setup) (a : Arm) (ans : CommandAnswer) (L : Live) : Live :=
  match (L.arm a).txn with
  | some (.command s) =>
    if answers s.entry.command ans then
      pump (afterTxn g a (outcome g s.entry (.answered ans) (answered g s.entry.pos (clearTxn a L))))
    else L
  | _ => L

/-- A LOST node answers (R16): READY, and power owed to the node beyond an open switch. -/
def recovered (g : Setup) (a : Arm) (k : Nat) (ans : IdentifyAnswer) (L : Live) : Live :=
  let L := identified g (posAt a k) ans L
  if ans.switch = .opened ∧ k < 16 ∧ (L.dock (posAt a (k + 1))).link = .lost ∧ (L.arm a).state.active then
    updArm a (fun r => { r with repower := r.repower ++ [k] }) L
  else L

/-- The answer to a localization's IDENTIFY is a recovery and ends the localization (R17). -/
def locateAnswered (g : Setup) (a : Arm) (k : Nat) (ans : IdentifyAnswer) (L : Live) : Live :=
  let L := recovered g a k ans (clearTxn a L)
  match (L.arm a).work with
  | .locateProbe _ _ => endLocalization g a L
  | _ => L

/-- A probed position answers IDENTIFY and the walk goes on (R6). -/
def probeAnswered (g : Setup) (a : Arm) (ans : IdentifyAnswer) (L : Live) : Live :=
  match (L.arm a).txn with
  | some (.probe k) =>
    let L := identified g (posAt a k) ans (clearTxn a L)
    let L := match (L.arm a).work with
      | .probe _ _ => walk g a (k + 1) L
      | _ => L
    pump (afterTxn g a L)
  | some (.locProbe k) => pump (afterTxn g a (locateAnswered g a k ans L))
  | _ => L

/-- A walk whose probed position came back by a recovery probe that was already on the line passes it (R5, R16). -/
def passProbed (g : Setup) (a : Arm) (L : Live) : Live :=
  match (L.arm a).work with
  | .probe k _ => if answering L a k then walk g a (k + 1) L else L
  | _ => L

/-- A LOST position answers its recovery probe (R16). -/
def recoveryAnswered (g : Setup) (a : Arm) (ans : IdentifyAnswer) (L : Live) : Live :=
  match (L.arm a).txn with
  | some (.recovery k) => pump (afterTxn g a (passProbed g a (recovered g a k ans (clearTxn a L))))
  | some (.locProbe k) => pump (afterTxn g a (locateAnswered g a k ans L))
  | _ => L

/-- A position's switch record (R4). -/
def setSwitch (p : Pos) (s : Switch) (L : Live) : Live := updLink p (fun l => { l with switch := s }) L

/-- PASS POWER was answered CLOSED: a walk that feeds the next position waits one slot (R5, R16). -/
def passClosed (a : Arm) (k : Nat) (L : Live) : Live :=
  let L := setSwitch (posAt a k) .closed L
  if (L.arm a).work = .feed (k + 1) then setWork a (.waitSlot (k + 1)) L else L

/-- Line work that waits for a node beyond node k, which the trip of k's switch has cut off (log 59): a walk that feeds from
it sends it nothing more and probes on (R5), and a diagnosis or localization at it goes on at the highest position that
answers, as where it is LOST (R7, R17). -/
def workBeyond (g : Setup) (a : Arm) (k : Nat) (L : Live) : Live :=
  match (L.arm a).work with
  | .feed n => if k + 1 < n then startProbe g a n L else L
  | .diagnose n => if k + 1 < n then locateHighest a L else L
  | .locate j => if k < j then locateHighest a L else L
  | _ => L

/-- PASS POWER was answered TRIPPED (R5, R16). A walk that does not feed the next position goes on, also where it stands
beyond the node (log 59). -/
def passTripped (g : Setup) (a : Arm) (k : Nat) (L : Live) : Live :=
  let feeding := (L.arm a).work = .feed (k + 1)
  let L := setSwitch (posAt a k) .opened L
  let L := darkFrom g a (k + 1) (openAt g .lineShort (posAt a (k + 1)) L)
  if feeding then endDiscovery g a L else workBeyond g a k L

/-- A node answers PASS POWER (R4, R5, R16). A stop that abandoned the work leaves only the switch record (R21). -/
def passPowerAnswered (g : Setup) (a : Arm) (ans : PassPowerResult) (L : Live) : Live :=
  match (L.arm a).txn with
  | some (.passPower k) =>
    let owed := (L.arm a).repower.contains k ∨ (L.arm a).work = .feed (k + 1)
    let L := answered g (posAt a k) (clearTxn a L)
    let L := updArm a (fun r => { r with repower := r.repower.filter fun i => i ≠ k }) L
    let L :=
      match ans with
      | .closed => passClosed a k L
      | .tripped => if owed then passTripped g a k L else setSwitch (posAt a k) .opened L
    pump (afterTxn g a L)
  | _ => L

/-- A node answers SWITCH REPORT (R7, R17). -/
def reportAnswered (g : Setup) (a : Arm) (switch : Switch) (sense : Sense) (L : Live) : Live :=
  match (L.arm a).txn with
  | some (.report k) =>
    let L := setSwitch (posAt a k) switch (answered g (posAt a k) (clearTxn a L))
    let L := match (L.arm a).work with
      | .diagnose n => if n = k + 1 then diagnose g a n switch sense L else L
      | .locate j => if j = k then locate g a j switch sense L else L
      | _ => L
    pump (afterTxn g a L)
  | _ => L

/-- OPEN SWITCH was answered OPENED by the target t (R18). -/
def switchOpened (g : Setup) (a : Arm) (t : Nat) (L : Live) : Live :=
  match (L.arm a).work with
  | .isolate n loc => if n = t then endIsolation g a loc (darkFrom g a (t + 1) L) else L
  | _ => L

/-- OPEN SWITCH was answered STUCK by the target t (R18). -/
def switchStuck (g : Setup) (a : Arm) (t : Nat) (L : Live) : Live :=
  match (L.arm a).work with
  | .isolate n loc => if n = t then moveTarget g a t loc (openAt g .switchStuck (posAt a t) L) else L
  | _ => L

/-- A node answers OPEN SWITCH (R4, R18). -/
def openSwitchAnswered (g : Setup) (a : Arm) (ans : OpenSwitchResult) (L : Live) : Live :=
  match (L.arm a).txn with
  | some (.openSwitch t) =>
    let L := answered g (posAt a t) (clearTxn a L)
    let L :=
      match ans with
      | .opened => switchOpened g a t (setSwitch (posAt a t) .opened L)
      | .stuck => switchStuck g a t (setSwitch (posAt a t) .closed L)
    pump (afterTxn g a L)
  | _ => L

/-! ## Timeouts (R6, R12, R15–R18) -/

/-- The target of an isolation did not answer OPEN SWITCH (R18). -/
def openSwitchMissed (g : Setup) (a : Arm) (t : Nat) (L : Live) : Live :=
  let L := countMiss g a t L
  match (L.arm a).work with
  | .isolate n loc => if n = t then moveTarget g a t loc L else L
  | _ => L

/-- The 20 ms answer timeout of the transaction in progress (R12, R13, R15, R18). -/
def answerTimeout (g : Setup) (a : Arm) (L : Live) : Live :=
  let done := fun M : Live => pump (afterTxn g a M)
  match (L.arm a).txn with
  | some (.passPower k) | some (.report k) => done (countMiss g a k (clearTxn a L))
  | some (.openSwitch t) => done (openSwitchMissed g a t (clearTxn a L))
  | some (.command s) =>
    done (countMiss g a (numOf s.entry.pos) (updArm a (fun r => { r with txn := none, resend := some s }) L))
  | some (.poll k code rep _) => done (countMiss g a k (putBack (posAt a k) code rep (clearTxn a L)))
  | _ => L

/-- A try of a discovery probe was not answered (R6). -/
def probeMissed (g : Setup) (a : Arm) (k : Nat) (L : Live) : Live :=
  match (L.arm a).work with
  | .probe _ tries =>
    if tries + 1 < Config.identifyTries then setWork a (.probe k (tries + 1)) L else judge g a k L
  | _ => L

/-- A try of a localization's IDENTIFY was not answered (R17). -/
def locateMissed (g : Setup) (a : Arm) (L : Live) : Live :=
  match (L.arm a).work with
  | .locateProbe j tries =>
    if tries + 1 < Config.identifyTries then setWork a (.locateProbe j (tries + 1)) L
    else beginIsolation g a j true (openAt g .nodeDead (posAt a (j + 1)) L)
  | _ => L

/-- A recovery probe was not answered: the timer restarts (R16). -/
def recoveryMissed (a : Arm) (k : Nat) (L : Live) : Live :=
  if (L.dock (posAt a k)).link = .lost then updLink (posAt a k) (fun l => { l with recovery := .running }) L else L

/-- The 50 ms timeout of an IDENTIFY (R6, R16, R17). -/
def identifyTimeout (g : Setup) (a : Arm) (L : Live) : Live :=
  let done := fun M : Live => pump (afterTxn g a M)
  match (L.arm a).txn with
  | some (.probe k) => done (probeMissed g a k (clearTxn a L))
  | some (.locProbe _) => done (locateMissed g a (clearTxn a L))
  | some (.recovery k) => done (recoveryMissed a k (clearTxn a L))
  | _ => L

/-- A recovery timer expires (R16). -/
def recoveryTimer (p : Pos) (L : Live) : Live :=
  if (L.dock p).link = .lost ∧ (L.link p).recovery = .running then
    pump (updLink p (fun l => { l with recovery := .due }) L)
  else L

/-- A discovery's slot wait ends (R5). -/
def slotExpiry (g : Setup) (a : Arm) (L : Live) : Live :=
  match (L.arm a).work with
  | .waitSlot k => pump (walk g a k L)
  | _ => L

end Sys2Proof.Machine
end

