-- ==== Sys2Proof/Machine/Power.lean ====
section
/-! DEFINITION. The power sequencer and the clock (chapter 9): power state, shed set, arm sequences, service holding,
root sense readings, the scheme clock and the seconds of the part's own timers. -/

namespace Sys2Proof.Machine

/-! ## Shed set and arm sequences (R183–R185) -/

/-- The shed set of a power state (R183). -/
def shedSetOf (g : Setup) (st : PowerState) (returnQuiet : Bool) : Vector Bool 4 :=
  g.arms.map fun c =>
    match st with
    | .run => false
    | .quiet => c.nightOff
    | .holdover => !c.holdoverKeep || (returnQuiet && c.nightOff)
    | .off => true

/-- An arm takes its shed mark (R183). -/
def markShed (a : Arm) (L : Live) : Live :=
  { L with power := { L.power with shedMark := upd L.power.shedMark a fun _ => true } }

/-- The sequence in flight, and whether its first step waits (R184, R185). -/
def setSequence (s : List (StepAction × Arm)) (waiting : Bool) (L : Live) : Live :=
  { L with power := { L.power with sequence := s, waiting := waiting } }

/-- A START step of the sequence has begun the arm's discovery (R1, R185). -/
def markBegun (a : Arm) (L : Live) : Live :=
  { L with power := { L.power with begun := upd L.power.begun a fun _ => true } }

/-- The next step of a sequence is taken; skipped steps take no slot (R185). -/
def takeStep (g : Setup) : List (StepAction × Arm) → Live → Live
  | [], L => setSequence [] false L
  | (.stop, a) :: rest, L =>
    if (L.arm a).state.active then setSequence rest false (markShed a (armStop g a L)) else takeStep g rest L
  | (.start, a) :: rest, L =>
    match (L.arm a).state with
    | .off => setSequence rest false (markBegun a (startFull g a L))
    | .stopping => setSequence ((.start, a) :: rest) true L
    | _ => takeStep g rest L

/-- The service membership of the arm records is kept with the sequence being built, none of whose steps has begun a
discovery yet (R1). -/
def keepMembers (g : Setup) (L : Live) : Live :=
  { L with power :=
      { L.power with members := g.arms.map fun c => c.service, begun := Vector.replicate 4 false } }

/-- A new sequence in place of any in flight, with the membership of that moment (R1); its first step is taken at once
(R184, R185). -/
def beginSequence (g : Setup) (s : List (StepAction × Arm)) (L : Live) : Live :=
  takeStep g s (setSequence s false (keepMembers g L))

/-- The steps that a recomputed shed set calls for (R184). -/
def sequenceFor (g : Setup) (L : Live) : List (StepAction × Arm) :=
  let stops := g.startOrder.reverse.filter fun a => L.power.shedSet[a] && (L.arm a).state.active
  let starts := g.startOrder.filter fun a => !L.power.shedSet[a] && L.power.shedMark[a]
  stops.map (fun a => (.stop, a)) ++ starts.map (fun a => (.start, a))

/-- The shed set recomputed and a new sequence built (R183, R184). -/
def recomputeShed (g : Setup) (L : Live) : Live :=
  let L := { L with power := { L.power with shedSet := shedSetOf g L.power.state L.power.returnQuiet } }
  beginSequence g (sequenceFor g L) L

/-- One slot after the previous step the next is taken (R185); a waiting START waits on. -/
def sequenceStep (g : Setup) (L : Live) : Live :=
  if L.power.waiting ∨ L.power.sequence = [] then L else pump (takeStep g L.power.sequence L)

/-- The stop of an arm has ended: a START step waiting for it goes on (R185). -/
def resumeStart (g : Setup) (a : Arm) (L : Live) : Live :=
  match L.power.sequence with
  | (_, b) :: _ => if L.power.waiting ∧ b = a then takeStep g L.power.sequence L else L
  | [] => L

/-! ## Root sense (R2, R7, R17, R19–R21) -/

/-- The sense reading that ends a root opening or an arm stop (R19, R20, R21). -/
def stoppingSense (g : Setup) (a : Arm) (sense : Sense) (L : Live) : Live :=
  match sense with
  | .noLoad =>
    let second := (L.arm a).secondFault
    let L := updArm a (fun r => { r with secondFault := false }) (changeArm g a .off L)
    resumeStart g a (if second then openFault g .lineShort (.arm a) .none L else L)
  | .load | .overcurrent =>
    let L := updArm a (fun r => { r with secondFault := false }) (changeArm g a .failed L)
    resumeStart g a (openFault g .armFailed .station (.failedArm a) L)

/-- A root sense reading (R2). It is awaited while STOPPING with the root switch open, and during a diagnosis or a
localization at the root. -/
def rootSense (g : Setup) (a : Arm) (sense : Sense) (L : Live) : Live :=
  match (L.arm a).state, (L.arm a).work with
  | .stopping, _ => if (L.arm a).stopWaits then L else pump (stoppingSense g a sense L)
  | _, .diagnoseRoot => pump (diagnoseRoot g a sense L)
  | _, .locateRoot => pump (locateRoot g a sense L)
  | _, _ => L

/-! ## Power state (R177–R181) -/

/-- A change of power state, raised and acted on by the dock table (R177). -/
def setPower (st : PowerState) (L : Live) : Live :=
  refreshNodes allPos (raise .powerChange { L with power := { L.power with state := st } })

/-- Every arm that is STARTING, RUNNING or SERVICE begins an arm stop and takes a shed mark (R181 step 2), A to D one by one
(log 82). -/
def stopAll (g : Setup) (L : Live) : Live :=
  allArms.foldl (fun M a => if (M.arm a).state.active then markShed a (armStop g a M) else M) L

/-- The entry into OFF (R181). -/
def enterOff (g : Setup) (L : Live) : Live :=
  let L := setPower .off L
  let L := if visitOn L then closeVisit g .power L else L
  let L := stopAll g (setSequence [] false L)
  { L with power := { L.power with shedSet := Vector.replicate 4 true } }

/-- HOLDOVER with the state that was left as the return state (R180). -/
def inHoldover (L : Live) : Live :=
  setPower .holdover { L with power := { L.power with returnQuiet := L.power.state = .quiet } }

/-- The withdrawals on a change to HOLDOVER (R77, R143), riders' before crews' (log 84). -/
def withdrawAtHoldover (g : Setup) (L : Live) : Live :=
  withdrawCrews g .stationClosed allPos (withdrawReleases g .stationClosed allPos L)

/-- The entry into HOLDOVER (R180), which passes on to OFF after the withdrawals where the battery is low. -/
def enterHoldover (g : Setup) (L : Live) : Live :=
  if L.power.battLow then enterOff g (withdrawAtHoldover g (inHoldover L))
  else recomputeShed g (withdrawAtHoldover g (inHoldover L))

/-- HOLDOVER is left for the return state (R180). -/
def leaveHoldover (g : Setup) (L : Live) : Live :=
  recomputeShed g (setPower (if L.power.returnQuiet then .quiet else .run) L)

/-- MAINS_OK becomes false (R178). -/
def mainsFalse (g : Setup) (L : Live) : Live :=
  let L := { L with power := { L.power with mainsOk := false } }
  match L.power.state with
  | .run | .quiet => pump (enterHoldover g L)
  | .holdover | .off => L

/-- BATT_LOW becomes true (R178). -/
def battTrue (g : Setup) (L : Live) : Live :=
  let L := { L with power := { L.power with battLow := true } }
  match L.power.state with
  | .holdover => pump (enterOff g L)
  | .run | .quiet | .off => L

/-- BATT_LOW becomes false (R178). -/
def battFalse (L : Live) : Live := { L with power := { L.power with battLow := false } }

/-- The SERVICE line changes, and the holding is applied to every arm, A to D one by one (R186; log 81). -/
def serviceLine (g : Setup) (level : Bool) (L : Live) : Live :=
  pump
    (allArms.foldl (fun M a => applyHolding g a M) { L with power := { L.power with service := level } })

/-- QUIET changes the power state between RUN and QUIET, or the return state in HOLDOVER (R179). -/
def quietTo (g : Setup) (on : Bool) (L : Live) : Live :=
  match L.power.state, on with
  | .run, true => recomputeShed g (setPower .quiet L)
  | .quiet, false => recomputeShed g (setPower .run L)
  | .holdover, b => recomputeShed g { L with power := { L.power with returnQuiet := b } }
  | _, _ => L

/-! ## The clock (R188, R189) -/

/-- One second of the scheme clock (R188). -/
def tickClock (c : Clock) : Clock :=
  if c.second < 59 then { c with second := c.second + 1 }
  else if c.minute < Config.maxU32 then { c with minute := c.minute + 1, second := 0 }
  else c

/-- One second of a settlement window (R86). -/
def tickSlot (s : Slot) : Slot :=
  if s.window = .running ∨ s.window = .reported then { s with secondsLeft := s.secondsLeft - 1 } else s

/-- One second of the timers whose seconds left the part reports (R56, R86, R150): query timers in every power state,
settlement windows out of OFF, the van window in RUN and QUIET (log 5). -/
def tickTimers (L : Live) : Live :=
  let L := { L with queries := L.queries.map fun q => { q with secondsLeft := q.secondsLeft - 1 } }
  let L :=
    if L.power.state = .off then L
    else { L with docks := L.docks.map fun d => { d with slot := d.slot.map tickSlot } }
  if visitOn L ∧ (L.power.state = .run ∨ L.power.state = .quiet) then
    updVisit (fun v => { v with secondsLeft := v.secondsLeft - 1 }) L
  else L

/-- One second passes (R188): the clock counts on the station battery whatever the part does; the timers run where the
part runs; a new minute is handed to the card list unit (R66). -/
def clockTick (L : Live) : Live :=
  let before := L.clock.minute
  let L := { L with clock := tickClock L.clock }
  if L.powered ∧ L.boot.isNone then
    let L := tickTimers L
    if L.clock.minute = before then L else pump (passCheck L)
  else L

/-- A query entry's timer expires (R59). -/
def queryTimeout (c : CardId) (L : Live) : Live :=
  match findQuery L c with
  | some q => placeMessage q.pos .cardUnknown (dropQuery c L)
  | none => L

/-- A settlement window ends (R88); windows are frozen in OFF (R181). -/
def windowExpiry (g : Setup) (p : Pos) (L : Live) : Live :=
  if L.power.state = .off then L else pump (settleOpen g p L)

/-- The van window ends (R150). -/
def vanExpiry (g : Setup) (L : Live) : Live :=
  if visitOn L ∧ (L.power.state = .run ∨ L.power.state = .quiet) then pump (closeVisit g .expired L) else L

end Sys2Proof.Machine
end

