-- ==== Sys2Proof/Machine/Startup.lean ====
section
/-! DEFINITION. Start-ups (R191–R194, R206): what a restart keeps, what a cold reset leaves, the steps after the lines
are read, the supply and the RESET pin; and the end of a reply (R192, R197). -/

namespace Sys2Proof.Machine

/-- The settings a restart keeps: all but the slot length and the hire settings (R93, R182, R193). -/
def restartSetup (g : Setup) : Setup :=
  { g with slotMs := 250, takeWindow := 30, settleWindow := 60, queryTimeout := 3 }

/-- What a restart keeps of a dock record: its settlement slot and deferred moves (R25, R191). -/
def restartDock (d : DockRec) : DockRec := { DockRec.cold with slot := d.slot, moves := d.moves }

/-- What a restart keeps of everything else (R191, R193 step 1): the retained store, with claims dropped (R126), the
line levels being read at step 3. The fill counts are those of the emptied dock table (R129). -/
def restartLive (g : Setup) (L : Live) : Live :=
  { Live.cold with
    docks := L.docks.map restartDock, cards := L.cards, closing := L.closing
    journal := { L.journal with claims := 0 }, visit := L.visit, faults := L.faults, nextFault := L.nextFault
    counters := L.counters, clock := L.clock, fillState := fillStateOf g 0, boot := some .restart }

/-- Steps 1 and 2 of a start-up (R193, R194): a cold reset where it is asked for or the retained store is invalid. -/
def beginStartup (kind : StartKind) (s : State) : State :=
  match kind, s.live.storeValid with
  | .restart, true => { s with setup := restartSetup s.setup, live := restartLive (restartSetup s.setup) s.live }
  | _, _ => { s with setup := Setup.cold, live := Live.cold }

/-- The power state chosen from the lines (R193 step 3). -/
def powerAtStart (mainsOk battLow : Bool) : PowerState :=
  if mainsOk then .run else if battLow then .off else .holdover

/-- Step 3: line levels in force, power state, shed set. -/
def readLines (g : Setup) (mainsOk battLow service : Bool) (L : Live) : Live :=
  let st := powerAtStart mainsOk battLow
  { L with power := { Power.initial with
      state := st, mainsOk := mainsOk, battLow := battLow, service := service, shedSet := shedSetOf g st false } }

/-- Step 4: an open van visit is closed RESTART. -/
def closeAtRestart (g : Setup) (L : Live) : Live := if visitOn L then closeVisit g .restart L else L

/-- Step 5: slots in RUNNING or REPORTED are settled, in position order (log 68), closing entries in SENDING become AWAY
(R94). -/
def settleAtRestart (g : Setup) (L : Live) : Live :=
  let L := allPos.foldl (fun M p => settleOpen g p M) L
  { L with closing := L.closing.map fun e => if e.state = .sending then { e with state := .away, retry := none } else e }

/-- Step 9: a start sequence for every arm outside the shed set, shed marks for the others (R184, R193). -/
def startSequence (g : Setup) (L : Live) : Live :=
  let L := { L with power := { L.power with shedMark := L.power.shedSet } }
  if L.power.state = .off then L
  else beginSequence g ((g.startOrder.filter fun a => !L.power.shedSet[a]).map fun a => (.start, a)) L

/-- The event kind that step 7 raises (R193, R194). -/
def StartKind.event : StartKind → EventKind
  | .restart => .restarted
  | .cold => .coldStart

/-- Steps 3 to 9 of a start-up (R193). -/
def finishStartup (g : Setup) (kind : StartKind) (mainsOk battLow service : Bool) (L : Live) : Live :=
  let L := serve g (settleAtRestart g (closeAtRestart g (readLines g mainsOk battLow service L)))
  startSequence g { raise kind.event L with boot := none }

/-- The lines have held their levels during a start-up (R193). -/
def startupLines (g : Setup) (mainsOk battLow service : Bool) (L : Live) : Live :=
  match L.powered, L.boot with
  | true, some kind => finishStartup g kind mainsOk battLow service L
  | _, _ => L

/-- MAINS_OK becomes true (R178): HOLDOVER is left, OFF restarts. -/
def mainsTrue (s : State) : State :=
  let L := { s.live with power := { s.live.power with mainsOk := true } }
  match L.power.state with
  | .holdover => { s with live := pump (leaveHoldover s.setup L) }
  | .off => beginStartup .restart { s with live := L }
  | .run | .quiet => { s with live := L }

/-- The RESET pin is pulsed (R192), also during a start-up, whose kind the store as it stands then decides anew (log 78). -/
def resetPulse (s : State) : State := if s.live.powered then beginStartup .restart s else s

/-- Power is applied (R192). With the battery flat the store has lost its contents and is invalid (R191); with the
battery good the store decides (log 9). -/
def applyPower (batteryFlat : Bool) (s : State) : State :=
  if s.live.powered then s
  else
    let valid := s.live.storeValid && !batteryFlat
    beginStartup .restart { s with live := { s.live with powered := true, storeValid := valid } }

/-- The supply is lost (R202). Nothing works while it is away but the clock; the working state is discarded when power
is applied again (R193). -/
def losePower (L : Live) : Live := { L with powered := false }

/-- The last character of the reply in hand is sent (R192, R197). -/
def replyDone (s : State) : State :=
  let p := s.live.port
  match p.inHand with
  | none => s
  | some _ =>
    match p.startAfter with
    | some kind => beginStartup kind s
    | none =>
      let next := p.busy.map fun b => { kind := b.1, tag := b.2, reply := { result := .busy, reason := none, body := [] } }
      { s with live := { s.live with port := { p with inHand := next, busy := none } } }

end Sys2Proof.Machine
end

