-- ==== Sys2Proof/Machine/Events.lean ====
section
/-! DEFINITION. The meanings of the rows that are no requests and no host link bytes: lines, supply, clock, rack links
and timers. -/

namespace Sys2Proof.Machine

/-- An event that reaches the blocks: not while unpowered, nor during a start-up (logs 11 and 12). -/
def working (f : Setup → Live → Live) (s : State) : State :=
  if s.live.powered ∧ s.live.boot = none then { s with live := f s.setup s.live } else s

/-! ## Lines, supply and clock -/

/-- MAINS_OK becomes true (R178). -/
def execMainsOkTrue (s : State) : Host.Outcome State Fault Refusal :=
  goes (if s.live.powered ∧ s.live.boot = none then mainsTrue s else s)

/-- MAINS_OK becomes false (R178). -/
def execMainsOkFalse (s : State) : Host.Outcome State Fault Refusal := goes (working mainsFalse s)

/-- BATT_LOW becomes true (R178). -/
def execBattLowTrue (s : State) : Host.Outcome State Fault Refusal := goes (working battTrue s)

/-- BATT_LOW becomes false (R178). -/
def execBattLowFalse (s : State) : Host.Outcome State Fault Refusal := goes (working (fun _ => battFalse) s)

/-- The SERVICE line asserts (R186). -/
def execServiceLineAsserted (s : State) : Host.Outcome State Fault Refusal :=
  goes (working (fun g => serviceLine g true) s)

/-- The SERVICE line releases (R186). -/
def execServiceLineReleased (s : State) : Host.Outcome State Fault Refusal :=
  goes (working (fun g => serviceLine g false) s)

/-- One slot after the previous step of an arm sequence (R185). -/
def execSequenceStep (s : State) : Host.Outcome State Fault Refusal := goes (working sequenceStep s)

/-- The RESET pin is pulsed (R192). -/
def execResetPin (s : State) : Host.Outcome State Fault Refusal := goes (resetPulse s)

/-- Power is applied, the store's battery flat or not (R192, log 9). -/
def execPowerApplied (batteryFlat : Bool) (s : State) : Host.Outcome State Fault Refusal :=
  goes (applyPower batteryFlat s)

/-- One second passes (R188). -/
def execClockTick (s : State) : Host.Outcome State Fault Refusal :=
  goes { s with live := clockTick s.live }

/-- The lines have been read during a start-up (R193). -/
def execStartupLineRead (mainsOk battLow service : Bool) (s : State) : Host.Outcome State Fault Refusal :=
  goes { s with live := startupLines s.setup mainsOk battLow service s.live }

/-- The supply is lost (R202). -/
def execPowerRemoved (s : State) : Host.Outcome State Fault Refusal := goes { s with live := losePower s.live }

/-! ## Rack links -/

/-- A node answers a poll (R14). -/
def execPollAnswer (a : Arm) (answer : PollAnswer) (s : State) : Host.Outcome State Fault Refusal :=
  goes (working (fun g => pollAnswered g a answer) s)

/-- A node answers a command (R12). -/
def execCommandAnswer (a : Arm) (answer : CommandAnswer) (s : State) : Host.Outcome State Fault Refusal :=
  goes (working (fun g => commandAnswered g a answer) s)

/-- A position answers the IDENTIFY of a walk (R6). -/
def execDiscoveryIdentifyAnswer (a : Arm) (answer : IdentifyAnswer) (s : State) : Host.Outcome State Fault Refusal :=
  goes (working (fun g => probeAnswered g a answer) s)

/-- A LOST position answers its recovery probe (R16). -/
def execRecoveryProbeAnswer (a : Arm) (answer : IdentifyAnswer) (s : State) : Host.Outcome State Fault Refusal :=
  goes (working (fun g => recoveryAnswered g a answer) s)

/-- A node answers PASS POWER (R5). -/
def execPassPowerAnswer (a : Arm) (answer : PassPowerResult) (s : State) : Host.Outcome State Fault Refusal :=
  goes (working (fun g => passPowerAnswered g a answer) s)

/-- A node answers SWITCH REPORT (R7, R17). -/
def execSwitchReportAnswer (a : Arm) (switch : Switch) (sense : Sense) (s : State) :
    Host.Outcome State Fault Refusal :=
  goes (working (fun g => reportAnswered g a switch sense) s)

/-- A node answers OPEN SWITCH (R18). -/
def execOpenSwitchAnswer (a : Arm) (answer : OpenSwitchResult) (s : State) : Host.Outcome State Fault Refusal :=
  goes (working (fun g => openSwitchAnswered g a answer) s)

/-- A 20 ms answer timeout (R15). -/
def execAnswerTimeout (a : Arm) (s : State) : Host.Outcome State Fault Refusal :=
  goes (working (fun g => answerTimeout g a) s)

/-- A 50 ms IDENTIFY timeout (R6). -/
def execIdentifyTimeout (a : Arm) (s : State) : Host.Outcome State Fault Refusal :=
  goes (working (fun g => identifyTimeout g a) s)

/-- A recovery timer expires (R16). -/
def execRecoveryTimer (p : Pos) (s : State) : Host.Outcome State Fault Refusal :=
  goes (working (fun _ => recoveryTimer p) s)

/-- A discovery's slot wait ends (R5). -/
def execSlotExpiry (a : Arm) (s : State) : Host.Outcome State Fault Refusal :=
  goes (working (fun g => slotExpiry g a) s)

/-- The root sense is read (R2, R19). -/
def execRootSenseReading (a : Arm) (sense : Sense) (s : State) : Host.Outcome State Fault Refusal :=
  goes (working (fun g => rootSense g a sense) s)

/-! ## Timers -/

/-- A query entry's timer expires (R59). -/
def execQueryTimeout (card : CardId) (s : State) : Host.Outcome State Fault Refusal :=
  goes (working (fun _ => queryTimeout card) s)

/-- A settlement window ends (R88). -/
def execSettlementWindowExpiry (p : Pos) (s : State) : Host.Outcome State Fault Refusal :=
  goes (working (fun g => windowExpiry g p) s)

/-- The van window ends (R150). -/
def execVanWindowExpiry (s : State) : Host.Outcome State Fault Refusal := goes (working vanExpiry s)

end Sys2Proof.Machine
end

