-- ==== Sys2Proof/Machine/Reply.lean ====
section
/-! DEFINITION. Replies: result codes, the checks of R198 that every request meets, and the fields of reply bodies
(R207; log 34 says how the layouts were read). -/

namespace Sys2Proof.Machine

/-! ## Replies -/

/-- DONE with its reply fields. -/
def done (body : List Fld) : Reply := { result := .done, reason := none, body := body }

/-- A result without reply fields. -/
def plain (r : Result) : Reply := { result := r, reason := none, body := [] }

/-- REFUSED with its reason. -/
def refuse (r : Reason) : Reply := { result := .refused, reason := some r, body := [] }

/-- The reply was that the request is taken (R199). -/
def Reply.taken (r : Reply) : Bool := r.result = .done || r.result = .accepted

/-- The request is in hand with its reply (R197). -/
def setInHand (kind tag : Byte) (r : Reply) (s : State) : State :=
  { s with live := { s.live with port :=
      { s.live.port with inHand := some { kind := kind, tag := tag, reply := r } } } }

/-- What an owner does with a request: the state after it and the reply. -/
abbrev Owner := State → State × Reply

/-- An owner that only reads. -/
def reading (f : Setup → Live → Reply) : Owner := fun s => (s, f s.setup s.live)

/-- An owner that changes settings alone. -/
def setting (f : Setup → Live → Setup × Reply) : Owner := fun s =>
  ({ s with setup := (f s.setup s.live).1 }, (f s.setup s.live).2)

/-- An owner that changes everything but the settings. -/
def acting (f : Setup → Live → Live × Reply) : Owner := fun s =>
  let r := f s.setup s.live
  ({ s with live := r.1 }, r.2)

/-- An owner that may also put work on an arm: where the request is taken, idle arms hand out what is due (R10). One that
is not taken leaves the state as its owner gives it. -/
def driving (f : Setup → Live → Live × Reply) : Owner := fun s =>
  let r := f s.setup s.live
  ({ s with live := if r.2.taken then pump r.1 else r.1 }, r.2)

/-- The checks of R198 that do not read the frame: a start-up is answered BUSY, OFF answers all but STATUS with POWER
OFF, and an unpowered part takes nothing (log 4). -/
def takeRequest (kind tag : Byte) (owner : Owner) (s : State) : State :=
  if s.live.powered then
    if s.live.boot.isSome then setInHand kind tag (plain .busy) s
    else if s.live.power.state = .off ∧ kind ≠ 1 then setInHand kind tag (plain .powerOff) s
    else setInHand kind tag (owner s).2 (owner s).1
  else s

/-! ## Fields (R207) -/

/-- A number in one byte. -/
def b1 (n : Nat) : Fld := { size := 1, value := n }

/-- A number in two bytes. -/
def b2 (n : Nat) : Fld := { size := 2, value := n }

/-- A number in four bytes. -/
def b4 (n : Nat) : Fld := { size := 4, value := n }

/-- A card ID in eight bytes. -/
def b8 (n : Nat) : Fld := { size := 8, value := n }

/-- A flag. -/
def flag (b : Bool) : Fld := b1 b.toNat

/-- An optional field behind its presence byte. -/
def opt {α : Type} (o : Option α) (f : α → List Fld) : List Fld :=
  match o with
  | none => [b1 0]
  | some x => b1 1 :: f x

/-- A list behind its count byte. -/
def listOf {α : Type} (xs : List α) (f : α → List Fld) : List Fld := b1 xs.length :: xs.flatMap f

/-- Bytes of a list of fields. -/
def bodySize (fs : List Fld) : Nat := (fs.map (·.size)).sum

/-! ## Names as their places in the tables that define them -/

/-- Link states in the order of R3. -/
def linkNum : LinkState → Nat
  | .absent => 0
  | .probing => 1
  | .ready => 2
  | .silent => 3
  | .lost => 4
  | .dark => 5

/-- Node kinds in the order of R25. -/
def kindNum : NodeKind → Nat
  | .dock => 0
  | .kiosk => 1

/-- Latch states in the order of section 2.3. -/
def latchNum : Latch → Nat
  | .empty => 0
  | .held => 1
  | .unlatching => 2
  | .opened => 3
  | .uncertain => 4

/-- Reservations in the order of R25. -/
def reservationNum : Reservation → Nat
  | .none => 0
  | .vanPickup => 1
  | .vanDrop => 2

/-- Lamp settings in the order of R25. -/
def lampNum : Lamp → Nat
  | .on => 0
  | .dim => 1
  | .off => 2

/-- Switch positions in the order in which R3 names them; the spec gives them no numbers (DESIGN CHOICE, log 34). -/
def switchNum : Switch → Nat
  | .opened => 0
  | .closed => 1

/-- Arm states in the order of R2. -/
def armStateNum : ArmState → Nat
  | .off => 0
  | .starting => 1
  | .running => 2
  | .service => 3
  | .stopping => 4
  | .failed => 5

/-- Power states in the order of R177. -/
def powerNum : PowerState → Nat
  | .run => 0
  | .quiet => 1
  | .holdover => 2
  | .off => 3

/-- Bike kinds (R208). -/
def bikeKindNum : BikeKind → Nat
  | .pedal => 0
  | .ebike => 1

/-- Roles in the order of R49. -/
def roleNum : Role → Nat
  | .member => 0
  | .pass => 1
  | .crew => 2

/-- Card status in the order of R49. -/
def statusNum : CardStatus → Nat
  | .good => 0
  | .blocked => 1

/-- Window states in the order of R86. -/
def windowNum : WindowState → Nat
  | .running => 0
  | .reported => 1
  | .expired => 2
  | .deferredList => 3
  | .deferredJournal => 3

/-- Fill states in the order of R86's table (log 34; R131 gives them no numbers). -/
def fillNum : FillState → Nat
  | .deficit => 0
  | .balanced => 1
  | .surplus => 2

/-- Visit states in the order of R133. -/
def visitNum : VisitState → Nat
  | .none => 0
  | .opened => 1
  | .working => 2
  | .closed => 3

/-- Close reasons in the order of R133. -/
def closeNum : CloseReason → Nat
  | .complete => 0
  | .closed => 1
  | .expired => 2
  | .power => 3
  | .restart => 4

/-- Closure reasons in the order in which R67 names them; the spec gives them no numbers (DESIGN CHOICE, log 34). -/
def closureNum : ClosureReason → Nat
  | .expired => 0
  | .dropped => 1

/-- BIKE MOVE reasons in the order of R115. -/
def moveNum : MoveReason → Nat
  | .vanPickup => 0
  | .vanDrop => 1
  | .crewRemoval => 2
  | .unexplained => 3
  | .unaccounted => 4

/-- Fault kinds in the order of section 8.2. -/
def faultNum : FaultKind → Nat
  | .latchJam => 0
  | .tagFault => 1
  | .readerFault => 2
  | .dockReported => 3
  | .bikeReported => 4
  | .nodeLost => 5
  | .nodeDead => 6
  | .lineOpen => 7
  | .lineShort => 8
  | .switchStuck => 9
  | .armShortfall => 10
  | .armFailed => 11
  | .serviceDue => 12
  | .kioskExcess => 13
  | .clock => 14
  | .listFull => 15

/-- Fault record states in the order of R156. -/
def faultStateNum : FaultState → Nat
  | .opened => 0
  | .acked => 1
  | .cleared => 2

/-- Journal pending in the order of R156. -/
def pendingNum : JournalPending → Nat
  | .none => 0
  | .opened => 1
  | .cleared => 2
  | .both => 3

/-- Purposes in the order in which R139 names them; the spec gives them no numbers (DESIGN CHOICE, log 34). -/
def purposeNum : Purpose → Nat
  | .pickup => 0
  | .collection => 1

/-- Settlement kinds in the order of R110; the spec gives them no numbers (log 34). -/
def settleNum : SettleKind → Nat
  | .account => 0
  | .hold => 1

/-- Results in the order of R199 (R207). -/
def Result.num : Result → Nat
  | .done => 0
  | .accepted => 1
  | .busy => 2
  | .refused => 3
  | .range => 4
  | .full => 5
  | .notFound => 6
  | .unknownKind => 7
  | .lineOwned => 8
  | .crewOnly => 9
  | .clockStep => 10
  | .inUse => 11
  | .powerOff => 12

/-- Reasons (R207). -/
def Reason.num : Reason → Nat
  | .display c => c.num
  | .armFailed => 32
  | .notCrew => 33
  | .revisionUsed => 34
  | .notUncertain => 35
  | .noStation => 36
  | .inConfiguration => 37
  | .inLink => 38
  | .inFlight => 39
  | .notTaken => 40

/-- The result byte and the reason byte of a reply (R207). -/
def resultBytes (r : Result) (why : Option Reason) : List Fld :=
  [b1 r.num, b1 (match why with | some x => x.num | none => 0)]

/-! ## Records as fields -/

/-- A position's byte. -/
def posFld (p : Pos) : Fld := b1 p.val

/-- A stamp in the order of R27. -/
def stampFlds (s : Stamp) : List Fld :=
  [b8 s.card.toNat, b4 s.start, b2 s.originStation, b1 s.originPos, b1 s.plan.val, b2 s.revision, flag s.pass]

/-- A subject: its type (R209) and its value; the station has no value byte (log 34). -/
def subjectFlds : Subject → List Fld
  | .position p => [b1 0, posFld p]
  | .bike b => [b1 1, b4 b.toNat]
  | .card c => [b1 2, b8 c.toNat]
  | .arm a => [b1 3, b1 a.val]
  | .station => [b1 4]

/-- The kind's own field of a fault (R156). -/
def detailFlds : FaultDetail → List Fld
  | .none => []
  | .bikeReport p inWindow => [posFld p, b1 (if inWindow then 0 else 1)]
  | .positionsFound n => [b1 n]
  | .failedArm a => [b1 a.val]
  | .serviceDue c v => [b4 c, b4 v]
  | .clockAt p => [posFld p]
  | .lastLost k s => b1 (faultNum k) :: subjectFlds s

/-- Means of clearing, with the crew card for CREW (R156). -/
def meansFlds : Means → List Fld
  | .host => [b1 0]
  | .crew c => [b1 1, b8 c.toNat]
  | .recovery => [b1 2]
  | .collected => [b1 3]
  | .vacate => [b1 4]

/-- The fare unit's flags in the order of R108. -/
def flagFlds (f : FareFlags) : List Fld :=
  [flag f.clock, flag f.overlong, flag f.ceiling, flag f.fallback, flag f.eligible, flag f.waived, flag f.holdRemote,
   flag f.late]

/-- A card record with every field of R49. -/
def cardFlds (r : CardRec) : List Fld :=
  let hold := if r.role = .pass then some r else none
  let src := match r.source with
    | .kiosk p s => some (p, s)
    | .link => none
  [b8 r.card.toNat, b1 (roleNum r.role), b1 r.plan.val, b1 r.allowance, b1 r.outCount, b1 (statusNum r.status)] ++
    opt r.expiry (fun e => [b4 e]) ++ opt hold (fun h => [b4 h.holdIssued]) ++ opt hold (fun h => [b4 h.holdRemaining]) ++
    opt src (fun x => [posFld x.1]) ++ opt src (fun x => [b2 x.2]) ++
    [b1 (match r.source with | .link => 0 | .kiosk _ _ => 1)] ++ opt hold (fun h => [flag h.closure.isSome])

/-- The attention set (R203): each event kind's presence and raise count, each condition kind's presence. -/
def attentionFlds (L : Live) : List Fld :=
  L.attention.toList.flatMap (fun e => [flag e.pending, b1 e.count.toNat]) ++ (conditions L).map flag

/-- The clock: minute, second, valid flag (R188). -/
def clockFlds (c : Clock) : List Fld := [b4 c.minute, b1 c.second, flag c.valid]

/-- The power state and, in HOLDOVER, the return state (R177). -/
def powerFlds (L : Live) : List Fld :=
  b1 (powerNum L.power.state) ::
    opt (if L.power.state = .holdover then some L.power.returnQuiet else none) (fun q => [b1 q.toNat])

/-- The figures of R122 as R209 sizes them. -/
def journalFigures (L : Live) : List Fld :=
  opt L.journal.ring.head? (fun r => [b4 r.seq]) ++
    [b4 L.journal.lastIssued, b2 L.journal.held, b2 L.journal.free, b2 L.journal.claims, b2 L.journal.room] ++
    (writerCounts L).map b2

end Sys2Proof.Machine
end

