-- ==== Sys2Proof/Machine/Bytes.lean ====
section
/-! DEFINITION. Bytes: multi-byte numbers, the CRC of R207, the bike tag record as stored (R208), and a frame as sent
(R207). -/

namespace Sys2Proof.Machine

/-! ## Numbers (R207) -/

/-- A number in so many bytes, least significant byte first (R207). -/
def leBytes : Nat → Nat → List Byte
  | 0, _ => []
  | k + 1, n => BitVec.ofNat 8 n :: leBytes k (n / 256)

/-- The number that bytes give, least significant byte first (R207). -/
def leNat : List Byte → Nat
  | [] => 0
  | b :: bs => b.toNat + 256 * leNat bs

/-- The bytes of fields in their order (R207). -/
def fieldBytes (fs : List Fld) : List Byte := fs.flatMap fun f => leBytes f.size f.value

/-! ## The CRC (R207) -/

/-- One bit of the CRC register: the polynomial x¹⁶ + x¹² + x⁵ + 1. -/
def crcBit (r : BitVec 16) : BitVec 16 := if r.msb then (r <<< 1) ^^^ 0x1021#16 else r <<< 1

/-- One byte, most significant bit first. -/
def crcByte (r : BitVec 16) (b : Byte) : BitVec 16 :=
  crcBit (crcBit (crcBit (crcBit (crcBit (crcBit (crcBit (crcBit (r ^^^ (b.setWidth 16 <<< 8)))))))))

/-- The CRC of bytes, from 0xFFFF, without final inversion. -/
def crc (bs : List Byte) : BitVec 16 := bs.foldl crcByte 0xFFFF#16

/-- The CRC's two bytes, high byte first. -/
def crcBytes (bs : List Byte) : List Byte := [(crc bs >>> 8).setWidth 8, (crc bs).setWidth 8]

/-! ## The bike tag record (R208) -/

/-- The stamp fields a tag stores, 0 where its state calls for none. -/
def storedStamp : TagStamp → Stamp
  | .none => { card := 0, start := 0, originStation := 0, originPos := 0, plan := 0, revision := 0, pass := false }
  | .opened s => s
  | .closed s _ => s

/-- The stamp state byte. -/
def stampStateByte : TagStamp → Nat
  | .none => 0
  | .opened _ => 1
  | .closed _ _ => 2

/-- The close minute a tag stores, 0 where its state calls for none. -/
def storedClose : TagStamp → Minute
  | .closed _ m => m
  | _ => 0

/-- The byte at offset 21: plan class, pass flag, fault mark present. -/
def tagBits (s : Stamp) (mark : Bool) : Nat := s.plan.val + 8 * s.pass.toNat + 16 * mark.toNat

/-- Offsets 0 to 33 of a tag. -/
def tagFields (t : Tag) : List Fld :=
  let s := storedStamp t.stamp
  let m := t.mark.getD { minute := 0, station := 0 }
  [b4 t.bike.toNat, b1 (bikeKindNum t.kind), b1 (stampStateByte t.stamp), b8 s.card.toNat, b4 s.start,
   b2 s.originStation, b1 s.originPos, b1 (tagBits s t.mark.isSome), b2 s.revision, b4 (storedClose t.stamp),
   b4 m.minute, b2 m.station]

/-- The 36 bytes a tag stores (R208). -/
def encodeTag (t : Tag) : List Byte := fieldBytes (tagFields t) ++ crcBytes (fieldBytes (tagFields t))

/-- A number read at an offset. -/
def numAt (off size : Nat) (bs : List Byte) : Nat := leNat ((bs.drop off).take size)

/-- The stamp read from a tag's bytes. -/
def readStamp (bs : List Byte) : Stamp :=
  let bits := numAt 21 1 bs
  { card := BitVec.ofNat 64 (numAt 6 8 bs), start := numAt 14 4 bs, originStation := numAt 18 2 bs
    originPos := numAt 20 1 bs, plan := ⟨bits % 8, by omega⟩, revision := numAt 22 2 bs, pass := bits / 8 % 2 = 1 }

/-- The stamp state read from a tag's bytes; none for a state byte above 2. -/
def readState (bs : List Byte) : Option TagStamp :=
  match numAt 5 1 bs with
  | 0 => some .none
  | 1 => some (.opened (readStamp bs))
  | 2 => some (.closed (readStamp bs) (numAt 24 4 bs))
  | _ => none

/-- The bike kind read from a tag's bytes; none for a kind byte above 1. -/
def readKind (bs : List Byte) : Option BikeKind :=
  match numAt 4 1 bs with
  | 0 => some .pedal
  | 1 => some .ebike
  | _ => none

/-- The fault mark read from a tag's bytes. -/
def readMark (bs : List Byte) : Option FaultMark :=
  if numAt 21 1 bs / 16 % 2 = 1 then some { minute := numAt 28 4 bs, station := numAt 32 2 bs } else none

/-- The bytes pass the tests of R208 on the CRC and on bits 5 to 7 of offset 21. -/
def tagBytesOk (bs : List Byte) : Bool :=
  decide (bs.length = 36) && decide ((bs.drop 34) = crcBytes (bs.take 34)) && decide (numAt 21 1 bs < 32)

/-- The snapshot a dock makes of the 36 bytes it reads (R208). -/
def decodeTag (bs : List Byte) : Snapshot :=
  if tagBytesOk bs then
    match readKind bs, readState bs with
    | some k, some st => .read { bike := BitVec.ofNat 32 (numAt 0 4 bs), kind := k, stamp := st, mark := readMark bs }
    | _, _ => .unread
  else .unread

/-! ## Frames as sent (R207) -/

/-- The bytes that the CRC of a frame covers: length, kind, tag, body. -/
def frameCore (kind tag : Byte) (body : List Byte) : List Byte :=
  BitVec.ofNat 8 body.length :: kind :: tag :: body

/-- A host link frame (R207). -/
def frame (kind tag : Byte) (body : List Byte) : List Byte :=
  Config.sync :: (frameCore kind tag body ++ crcBytes (frameCore kind tag body))

/-- The body of a reply: result, reason, reply fields (R207). -/
def replyBody (r : Reply) : List Byte := fieldBytes (resultBytes r.result r.reason ++ r.body)

/-- The frame of the reply in hand (R198, R207). A body above 240 bytes has no frame in the spec: its bytes are a FREE
VALUE (log 35). -/
def replyFrame (h : InHand) : List Byte :=
  if (replyBody h.reply).length ≤ Config.maxBody then frame h.kind h.tag (replyBody h.reply)
  else Config.longReplyFrame h.kind h.tag (replyBody h.reply)

/-- What the part sends on HTXD while a request is in hand (R197). -/
def sending (L : Live) : List Byte :=
  match L.port.inHand with
  | some h => replyFrame h
  | none => []

end Sys2Proof.Machine
end

