-- ==== Sys2Proof/Machine/ReqStation.lean ====
section
/-! DEFINITION. Requests of the host port and of the power sequencer and clock: STATUS to COLD CLEAR of section 10.5,
and the meanings of their rows. -/

namespace Sys2Proof.Machine

/-! ## STATUS and CLEAR ATTENTION (R203, R204) -/

/-- What STATUS says of an arm (R203). -/
def armStatusFlds (g : Setup) (L : Live) (a : Arm) : List Fld :=
  [b1 (armStateNum (L.arm a).state), flag L.power.shedMark[a], flag L.power.request[a], flag (heldInService g L a)]

/-- The STATUS reply (R203). -/
def statusReply (g : Setup) (L : Live) : Reply :=
  done
    (attentionFlds L ++ powerFlds L ++ [flag L.power.mainsOk, flag L.power.battLow, flag L.power.service] ++
      allArms.flatMap (armStatusFlds g L) ++
      [flag L.clock.valid, flag g.station.isSome, b1 L.queries.length,
       b1 (L.remotes.countP fun e => e.ended.isNone), b1 (L.remotes.countP fun e => e.ended.isSome),
       b2 L.journal.held, b2 L.journal.free, b2 L.journal.room,
       b1 (L.faults.countP FaultRec.live), b1 (L.faults.countP (·.barring))])

/-- CLEAR ATTENTION (R204). -/
def clearAttention (items : List ClearItem) (_ : Setup) (L : Live) : Live × Reply :=
  if clearListOk items then
    let M := { L with attention := items.foldl clearItem L.attention }
    (M, done (attentionFlds M))
  else (L, plain .range)

/-! ## SET TIME and READ TIME (R189) -/

/-- Seconds of scheme time. -/
def clockSeconds (minute second : Nat) : Nat := minute * 60 + second

/-- SET TIME steps the clock back further than force allows (R189). -/
def stepsBack (minute second : Nat) (force : Bool) (c : Clock) : Bool :=
  c.valid && !force && decide (clockSeconds minute second + Config.backwardStep < clockSeconds c.minute c.second)

/-- The clock set, and its changes handed on (R188): a different minute to the card list unit (R66), a change of the
valid flag to the dock table (R45) and to the hire engine (R84), in the order of R188's text (log 51). -/
def setClock (g : Setup) (minute second : Nat) (L : Live) : Live :=
  let before := L.clock
  let L := { L with clock := { minute := minute, second := second, valid := true } }
  let L := if minute = before.minute then L else passCheck L
  if before.valid then L else priceAllLate g (refreshCodes allPos L)

/-- SET TIME (R189). -/
def setTime (minute second : Nat) (force : Bool) (g : Setup) (L : Live) : Live × Reply :=
  if 59 < second then (L, plain .range)
  else if g.station.isNone then (L, refuse .noStation)
  else if stepsBack minute second force L.clock then (L, plain .clockStep)
  else
    let M := setClock g minute second L
    (M, done (clockFlds L.clock ++ clockFlds M.clock))

/-- READ TIME (R189). -/
def readTime (g : Setup) (L : Live) : Reply :=
  done (clockFlds L.clock ++ opt g.station (fun n => [b2 n]) ++ [b2 g.slotMs])

/-! ## STATION SETUP and START ORDER (R190, R182) -/

/-- STATION SETUP (R190). -/
def stationSetup (station slotMs : Nat) (g : Setup) (_ : Live) : Setup × Reply :=
  if station = 0 ∨ 65535 < station then (g, plain .range)
  else ({ g with station := some station, slotMs := roundSlot slotMs }, done [b2 station, b2 (roundSlot slotMs)])

/-- The list names each of the four arms exactly once (R182). -/
def startOrderOk (arms : List Nat) : Bool :=
  decide (arms.length = 4) && [0, 1, 2, 3].all fun n => arms.contains n

/-- START ORDER (R182). -/
def setStartOrder (arms : List Nat) (g : Setup) (_ : Live) : Setup × Reply :=
  if startOrderOk arms then ({ g with startOrder := arms.filterMap arm? }, done []) else (g, plain .range)

/-! ## QUIET and ARM SERVICE (R179, R187) -/

/-- QUIET (R179). -/
def quiet (on : Bool) (g : Setup) (L : Live) : Live × Reply :=
  let M := quietTo g on L
  (M, done (powerFlds M))

/-- The SERVICE line holds the arm (R1, R22, R187). -/
def lineHolds (g : Setup) (L : Live) (a : Arm) : Bool := L.power.service && (g.arms[a]).service

/-- An arm's service request (R187). -/
def setRequest (a : Arm) (b : Bool) (L : Live) : Live :=
  { L with power := { L.power with request := upd L.power.request a fun _ => b } }

/-- ARM SERVICE (R187). -/
def armService (arm : Nat) (enter : Bool) (g : Setup) (L : Live) : Live × Reply :=
  match arm? arm with
  | none => (L, plain .range)
  | some a =>
    if lineHolds g L a then (L, plain .lineOwned)
    else if (L.arm a).state = .failed then (L, refuse .armFailed)
    else
      let M := applyHolding g a (setRequest a enter L)
      (M, done [b1 (armStateNum (M.arm a).state)])

/-! ## RESTART and COLD CLEAR (R192) -/

/-- RESTART and COLD CLEAR reply DONE; their start-up begins when the reply has been sent (R192). -/
def startAfterReply (kind : StartKind) (_ : Setup) (L : Live) : Live × Reply :=
  ({ L with port := { L.port with startAfter := some kind } }, done [])

/-! ## The rows -/

/-- The owner of STATUS (R203). -/
def ownStatus : Owner := reading statusReply

/-- STATUS (R203). -/
def execStatus (s : State) : Host.Outcome State Fault Refusal :=
  goes (takeRequest 1 0 ownStatus s)

/-- The owner of CLEAR ATTENTION (R204). -/
def ownClearAttention (items : List ClearItem) : Owner := acting (clearAttention items)

/-- CLEAR ATTENTION (R204). -/
def execClearAttention (items : List ClearItem) (s : State) : Host.Outcome State Fault Refusal :=
  goes (takeRequest 2 0 (ownClearAttention items) s)

/-- The owner of SET TIME (R189). -/
def ownSetTime (minute second : Nat) (force : Bool) : Owner := driving (setTime minute second force)

/-- SET TIME (R189). -/
def execSetTime (minute second : Nat) (force : Bool) (s : State) : Host.Outcome State Fault Refusal :=
  goes (takeRequest 3 0 (ownSetTime minute second force) s)

/-- The owner of READ TIME (R189). -/
def ownReadTime : Owner := reading readTime

/-- READ TIME (R189). -/
def execReadTime (s : State) : Host.Outcome State Fault Refusal :=
  goes (takeRequest 4 0 ownReadTime s)

/-- The owner of STATION SETUP (R190). -/
def ownStationSetup (station slotMs : Nat) : Owner := setting (stationSetup station slotMs)

/-- STATION SETUP (R190). -/
def execStationSetup (station slotMs : Nat) (s : State) : Host.Outcome State Fault Refusal :=
  goes (takeRequest 5 0 (ownStationSetup station slotMs) s)

/-- The owner of START ORDER (R182). -/
def ownStartOrder (arms : List Nat) : Owner := setting (setStartOrder arms)

/-- START ORDER (R182). -/
def execStartOrder (arms : List Nat) (s : State) : Host.Outcome State Fault Refusal :=
  goes (takeRequest 6 0 (ownStartOrder arms) s)

/-- The owner of QUIET ON (R179). -/
def ownQuietOn : Owner := driving (quiet true)

/-- QUIET ON (R179). -/
def execQuietOn (s : State) : Host.Outcome State Fault Refusal :=
  goes (takeRequest 7 0 ownQuietOn s)

/-- The owner of QUIET OFF (R179). -/
def ownQuietOff : Owner := driving (quiet false)

/-- QUIET OFF (R179). -/
def execQuietOff (s : State) : Host.Outcome State Fault Refusal :=
  goes (takeRequest 7 0 ownQuietOff s)

/-- The owner of ARM SERVICE, ENTER (R187). -/
def ownArmServiceEnter (arm : Nat) : Owner := driving (armService arm true)

/-- ARM SERVICE, ENTER (R187). -/
def execArmServiceEnter (arm : Nat) (s : State) : Host.Outcome State Fault Refusal :=
  goes (takeRequest 8 0 (ownArmServiceEnter arm) s)

/-- The owner of ARM SERVICE, LEAVE (R187). -/
def ownArmServiceLeave (arm : Nat) : Owner := driving (armService arm false)

/-- ARM SERVICE, LEAVE (R187). -/
def execArmServiceLeave (arm : Nat) (s : State) : Host.Outcome State Fault Refusal :=
  goes (takeRequest 8 0 (ownArmServiceLeave arm) s)

/-- The owner of RESTART (R192). -/
def ownRestart : Owner := acting (startAfterReply .restart)

/-- RESTART (R192). -/
def execRestart (s : State) : Host.Outcome State Fault Refusal :=
  goes (takeRequest 9 0 ownRestart s)

/-- The owner of COLD CLEAR (R192). -/
def ownColdClear : Owner := acting (startAfterReply .cold)

/-- COLD CLEAR (R192). -/
def execColdClear (s : State) : Host.Outcome State Fault Refusal :=
  goes (takeRequest 10 0 ownColdClear s)

end Sys2Proof.Machine
end

