-- ==== Sys2Proof/Machine/ReqArms.lean ====
section
/-! DEFINITION. Requests of the rack link controllers and the dock table: ARM CONFIGURE to DOCK READ of section 10.5,
and the meanings of their rows. -/

namespace Sys2Proof.Machine

/-! ## ARM CONFIGURE (R1) -/

/-- ARM CONFIGURE (R1). -/
def armConfigure (arm : Nat) (c : ArmConfig) (g : Setup) (L : Live) : Setup × Reply :=
  match arm? arm with
  | none => (g, plain .range)
  | some a =>
    if 16 < c.expected then (g, plain .range)
    else if L.power.service ∧ c.service ≠ (g.arms[a]).service then (g, plain .lineOwned)
    else ({ g with arms := upd g.arms a fun _ => c }, done [])

/-! ## ARM DISCOVER and ARM OFF (R9, R22) -/

/-- ARM DISCOVER on an arm (R9). -/
def discoverArm (a : Arm) (g : Setup) (L : Live) : Live × Reply :=
  match (L.arm a).state with
  | .off =>
    if L.power.shedSet[a] then (L, refuse (.display .stationClosed)) else (startFull g a L, plain .accepted)
  | .running => if (L.arm a).busy then (L, plain .busy) else (startExtension g a L, plain .accepted)
  | .starting | .service | .stopping => (L, plain .busy)
  | .failed => (L, refuse .armFailed)

/-- ARM DISCOVER (R9). -/
def armDiscover (arm : Nat) (g : Setup) (L : Live) : Live × Reply :=
  match arm? arm with
  | none => (L, plain .range)
  | some a => discoverArm a g L

/-- ARM OFF on an arm (R22). -/
def stopArm (a : Arm) (g : Setup) (L : Live) : Live × Reply :=
  match (L.arm a).state with
  | .off => (L, done [])
  | .starting | .running => (armStop g a L, plain .accepted)
  | .service => if lineHolds g L a then (L, plain .lineOwned) else (armStop g a L, plain .accepted)
  | .stopping => (L, plain .accepted)
  | .failed => (L, refuse .armFailed)

/-- ARM OFF (R22). -/
def armOffRequest (arm : Nat) (g : Setup) (L : Live) : Live × Reply :=
  match arm? arm with
  | none => (L, plain .range)
  | some a => stopArm a g L

/-! ## SHOW ALL (R24) -/

/-- The code placed as a message at every READY position (R24). -/
def showEverywhere (c : DisplayCode) (L : Live) : Live :=
  allPos.foldl (fun M p => if (M.dock p).link = .ready then placeMessage p c M else M) L

/-- SHOW ALL (R24). -/
def showAll (code : Nat) (_ : Setup) (L : Live) : Live × Reply :=
  match displayCode? code with
  | none => (L, plain .range)
  | some c => (showEverywhere c L, done [])

/-! ## DOCK READ (R47) -/

/-- A bike snapshot in full, in the order of R27. -/
def snapshotFlds : Snapshot → List Fld
  | .unread => [b1 0, b1 0, b1 0, b1 0, b1 0, b1 0, b1 1]
  | .read t =>
    let stamp := match t.stamp with
      | .none => none
      | .opened s => some s
      | .closed s _ => some s
    let close := match t.stamp with
      | .closed _ m => some m
      | _ => none
    let state := match t.stamp with
      | .none => 0
      | .opened _ => 1
      | .closed _ _ => 2
    [b1 1, b4 t.bike.toNat, b1 1, b1 (bikeKindNum t.kind), b1 1, b1 state] ++ opt stamp stampFlds ++
      opt close (fun m => [b4 m]) ++ opt t.mark (fun m => [b4 m.minute, b2 m.station]) ++ [b1 0]

/-- A settlement slot as DOCK READ gives it (R47), the bike ID standing once, as the first part of the stamp identity
(log 34). -/
def slotFlds (s : Slot) : List Fld :=
  let left := if s.window = .running ∨ s.window = .reported then some s.secondsLeft else none
  [b4 s.bike.toNat, b4 s.stamp.start] ++ opt s.endMinute (fun m => [b4 m]) ++ opt s.fare (fun f => [b4 f.net]) ++
    [b1 (windowNum s.window)] ++ opt left (fun n => [b1 n])

/-- The DOCK READ reply (R47): the fields of R25, then miss count, switch record and, for a dock, the counter. -/
def dockReply (p : Pos) (L : Live) : Reply :=
  let d := L.dock p
  let count := if d.kind = some .dock then some (L.counter p) else none
  done
    ([posFld p] ++ opt d.kind (fun k => [b1 (kindNum k)]) ++ opt d.serial (fun n => [b4 n.toNat]) ++
      [b1 (linkNum d.link)] ++ opt d.latch (fun l => [b1 (latchNum l)]) ++ opt d.snapshot snapshotFlds ++
      [b1 (reservationNum d.reservation), flag (barred L p)] ++ opt d.slot slotFlds ++
      opt d.code (fun c => [b1 c.1.num]) ++ opt d.lamp (fun l => [b1 (lampNum l)]) ++
      opt d.lastBikeIn (fun m => [b4 m]) ++ [b1 d.moves.length, b1 (min 255 (d.moves.map (·.merged)).sum)] ++
      [b1 (L.link p).misses, b1 (switchNum (L.link p).switch)] ++ opt count (fun n => [b4 n]))

/-- DOCK READ (R47). -/
def dockRead (pos : Nat) (_ : Setup) (L : Live) : Reply :=
  match pos? pos with
  | none => plain .range
  | some p => dockReply p L

/-! ## The rows -/

/-- The owner of ARM CONFIGURE (R1). -/
def ownArmConfigure (arm expected : Nat) (nightOff holdoverKeep service : Bool) : Owner :=
  setting
    (armConfigure arm
      { expected := expected, nightOff := nightOff, holdoverKeep := holdoverKeep, service := service })

/-- ARM CONFIGURE (R1). -/
def execArmConfigure (arm expected : Nat) (nightOff holdoverKeep service : Bool) (s : State) :
    Host.Outcome State Fault Refusal :=
  goes (takeRequest 11 0 (ownArmConfigure arm expected nightOff holdoverKeep service) s)

/-- The owner of ARM DISCOVER (R9). -/
def ownArmDiscover (arm : Nat) : Owner := driving (armDiscover arm)

/-- ARM DISCOVER (R9). -/
def execArmDiscover (arm : Nat) (s : State) : Host.Outcome State Fault Refusal :=
  goes (takeRequest 12 0 (ownArmDiscover arm) s)

/-- The owner of ARM OFF (R22). -/
def ownArmOff (arm : Nat) : Owner := driving (armOffRequest arm)

/-- ARM OFF (R22). -/
def execArmOff (arm : Nat) (s : State) : Host.Outcome State Fault Refusal :=
  goes (takeRequest 13 0 (ownArmOff arm) s)

/-- The owner of SHOW ALL (R24). -/
def ownShowAll (code : Nat) : Owner := acting (showAll code)

/-- SHOW ALL (R24). -/
def execShowAll (code : Nat) (s : State) : Host.Outcome State Fault Refusal :=
  goes (takeRequest 14 0 (ownShowAll code) s)

/-- The owner of DOCK READ (R47). -/
def ownDockRead (pos : Nat) : Owner := reading (dockRead pos)

/-- DOCK READ (R47). -/
def execDockRead (pos : Nat) (s : State) : Host.Outcome State Fault Refusal :=
  goes (takeRequest 15 0 (ownDockRead pos) s)

end Sys2Proof.Machine
end

