-- ==== Sys2Proof/Machine/ReqCards.lean ====
section
/-! DEFINITION. Requests of the card list unit: CARD PUT to QUERY READ of section 10.5, and the meanings of their
rows. -/

namespace Sys2Proof.Machine

/-! ## CARD PUT (R50, R51) -/

/-- The ranges that CARD PUT checks (R50). -/
def cardPutOk (c : CardPut) : Bool :=
  decide (c.plan ≤ 7 ∧ 1 ≤ c.allowance ∧ c.allowance ≤ 4) &&
    (c.role ≠ .pass || (c.expiry.isSome && c.holdIssued.isSome))

/-- The record that CARD PUT writes, from what it carries and the record before it (R51). -/
def cardPutRecord (c : CardPut) (plan : PlanClass) (old : Option CardRec) : CardRec :=
  let oldPass := old.filter fun r => r.role = .pass
  let out := c.outCount.getD ((old.map (·.outCount)).getD 0)
  let issued := c.holdIssued.getD 0
  let remaining := c.holdRemaining.getD ((oldPass.map (·.holdRemaining)).getD issued)
  let source := match oldPass with
    | some r => if c.role = .pass then r.source else .link
    | none => .link
  { card := c.card, role := c.role, plan := plan, allowance := c.allowance, outCount := min out c.allowance
    status := c.status, expiry := c.expiry
    holdIssued := if c.role = .pass then issued else 0
    holdRemaining := if c.role = .pass then min remaining issued else 0
    source := source, closure := none }

/-- The record written in card ID order, or in place of the record of its ID (R51). -/
def putCard (r : CardRec) (L : Live) : Live :=
  { L with cards :=
      if (findCard L.cards r.card).isSome then replaceCard r L.cards else insertCard r L.cards }

/-- CARD PUT (R50, R51, R58). -/
def cardPut (c : CardPut) (g : Setup) (L : Live) : Live × Reply :=
  match plan? c.plan with
  | none => (L, plain .range)
  | some plan =>
    if !cardPutOk c then (L, plain .range)
    else
      let old := findCard L.cards c.card
      if old.isNone ∧ Config.cardListSize ≤ L.cards.length then (L, plain .full)
      else if old.any (fun r => r.closure.isSome) then (L, plain .inUse)
      else (answerQuery g c.card (putCard (cardPutRecord c plan old) L), done [])

/-! ## CARD DROP (R52) -/

/-- CARD DROP (R52). -/
def cardDrop (card : CardId) (_ : Setup) (L : Live) : Live × Reply :=
  match findCard L.cards card with
  | none => (L, plain .notFound)
  | some r =>
    if 0 < r.outCount then (L, plain .inUse)
    else if r.closure.isSome then (L, done [])
    else if r.role = .pass then (closePass r .dropped L, done [])
    else ({ L with cards := removeCard card L.cards }, done [])

/-! ## CARD READ and CARD PAGE (R53, R54) -/

/-- CARD READ (R53). In a NOT FOUND reply one byte says whether a query entry stands and is the presence byte of its position
and seconds left (log 34). -/
def cardRead (card : CardId) (_ : Setup) (L : Live) : Reply :=
  match findCard L.cards card with
  | some r => done (cardFlds r)
  | none =>
    { result := .notFound, reason := none
      body := opt (findQuery L card) (fun q => [posFld q.pos, b1 q.secondsLeft]) }

/-- The records of a page (R54). -/
def cardsOfPage (page : Nat) (cards : List CardRec) : List CardRec :=
  (cards.drop (Config.pageSize * page)).take Config.pageSize

/-- CARD PAGE (R54). -/
def cardPage (page : Nat) (_ : Setup) (L : Live) : Reply :=
  if 128 ≤ page then plain .range
  else
    done
      (listOf (cardsOfPage page L.cards) cardFlds ++
        [flag (decide (L.cards.length ≤ Config.pageSize * page + Config.pageSize))])

/-! ## CARD UNKNOWN and QUERY READ (R58, R61) -/

/-- CARD UNKNOWN (R58). -/
def cardUnknown (card : CardId) (_ : Setup) (L : Live) : Live × Reply :=
  match findQuery L card with
  | some q => (placeMessage q.pos .cardUnknown (dropQuery card L), done [])
  | none => (L, plain .notFound)

/-- QUERY READ (R61). -/
def queryRead (_ : Setup) (L : Live) : Reply :=
  done
    (listOf L.queries fun q => [b8 q.card.toNat, posFld q.pos, b4 q.minute, b1 q.second, b1 q.secondsLeft])

/-! ## The rows -/

/-- The owner of CARD PUT (R51). -/
def ownCardPut (fields : CardPut) : Owner := driving (cardPut fields)

/-- CARD PUT (R51). -/
def execCardPut (fields : CardPut) (s : State) : Host.Outcome State Fault Refusal :=
  goes (takeRequest 16 0 (ownCardPut fields) s)

/-- The owner of CARD DROP (R52). -/
def ownCardDrop (card : CardId) : Owner := acting (cardDrop card)

/-- CARD DROP (R52). -/
def execCardDrop (card : CardId) (s : State) : Host.Outcome State Fault Refusal :=
  goes (takeRequest 17 0 (ownCardDrop card) s)

/-- The owner of CARD READ (R53). -/
def ownCardRead (card : CardId) : Owner := reading (cardRead card)

/-- CARD READ (R53). -/
def execCardRead (card : CardId) (s : State) : Host.Outcome State Fault Refusal :=
  goes (takeRequest 18 0 (ownCardRead card) s)

/-- The owner of CARD PAGE (R54). -/
def ownCardPage (page : Nat) : Owner := reading (cardPage page)

/-- CARD PAGE (R54). -/
def execCardPage (page : Nat) (s : State) : Host.Outcome State Fault Refusal :=
  goes (takeRequest 19 0 (ownCardPage page) s)

/-- The owner of CARD UNKNOWN (R58). -/
def ownCardUnknown (card : CardId) : Owner := acting (cardUnknown card)

/-- CARD UNKNOWN (R58). -/
def execCardUnknown (card : CardId) (s : State) : Host.Outcome State Fault Refusal :=
  goes (takeRequest 20 0 (ownCardUnknown card) s)

/-- The owner of QUERY READ (R61). -/
def ownQueryRead : Owner := reading queryRead

/-- QUERY READ (R61). -/
def execQueryRead (s : State) : Host.Outcome State Fault Refusal :=
  goes (takeRequest 21 0 ownQueryRead s)

end Sys2Proof.Machine
end

