-- ==== Sys2Proof/Machine/ReqFaults.lean ====
section
/-! DEFINITION. Requests of the fault list unit: FAULT ACK, FAULT CLEAR, FAULT READ, PRESET SET, COUNTER READ, COUNTER
RESET, and the meanings of their rows. -/

namespace Sys2Proof.Machine

/-! ## FAULT ACK, FAULT CLEAR, FAULT READ (R165, R166, R172) -/

/-- The live record of a number. -/
def findLive (L : Live) (n : Nat) : Option FaultRec := L.faults.find? fun f => f.number = n && f.live

/-- FAULT ACK (R165). -/
def faultAck (n : Nat) (_ : Setup) (L : Live) : Live × Reply :=
  match findLive L n with
  | none => (L, plain .notFound)
  | some _ =>
    ({ L with faults := L.faults.map fun f => if f.number = n && f.live then { f with state := .acked } else f },
      done [])

/-- FAULT CLEAR (R166). -/
def faultClear (n : Nat) (g : Setup) (L : Live) : Live × Reply :=
  match findLive L n with
  | none => (L, plain .notFound)
  | some f => if f.barring then (L, plain .crewOnly) else (clearFault g .host f L, done [])

/-- A fault record with every field of R156. -/
def faultFlds (f : FaultRec) : List Fld :=
  let reports := if f.kind = .dockReported then some f.reports else none
  [b2 f.number, b1 (faultNum f.kind)] ++ subjectFlds f.subject ++
    [b1 (faultStateNum f.state), b4 f.opening.minute, b4 f.lastSeen, b2 f.repeats] ++
    opt reports (fun rs => listOf rs fun m => [b4 m]) ++ [flag f.barring] ++
    opt (if f.detail = .none then none else some f.detail) detailFlds ++ [b1 (pendingNum f.pending)] ++
    opt f.clearing (fun c => meansFlds c.1) ++ opt f.clearing (fun c => [b4 c.2.1.minute])

/-- FAULT READ (R172). -/
def faultRead (p c : Nat) (_ : Setup) (L : Live) : Reply :=
  if c = 0 ∨ 8 < c ∨ 95 < p then plain .range
  else
    done
      (listOf ((L.faults.drop p).take c) faultFlds ++
        [b1 L.faults.length, b1 (ordinaryCount L), b1 (L.faults.countP FaultRec.live),
         b1 (L.faults.countP (·.barring)), b1 (L.faults.countP FaultRec.waits)])

/-! ## PRESET SET (R175) -/

/-- SERVICE DUE opened, in position order (log 75), where the applying preset changed and the counter already reaches the
new one (R175). -/
def presetChanged (before after : Setup) (L : Live) : Live :=
  allPos.foldl
    (fun M p =>
      if applying before p = applying after p then M
      else
        match applying after p with
        | some v => if v ≤ M.counter p then openServiceDue after p v M else M
        | none => M)
    L

/-- Settings changed by PRESET SET, SERVICE DUE following (R175). -/
def setPresets (g : Setup) : Owner := fun s =>
  ({ s with setup := g, live := presetChanged s.setup g s.live }, done [])

/-- PRESET SET in its value form (R175). -/
def presetValue (preset value : Nat) : Owner := fun s =>
  if h : 1 ≤ preset ∧ preset ≤ 4 then
    if value = 0 ∨ Config.counterCeiling < value then (s, plain .range)
    else
      setPresets
        { s.setup with presets := upd s.setup.presets ⟨preset - 1, by omega⟩ fun _ => some value } s
  else (s, plain .range)

/-- PRESET SET in its assign form (R175). -/
def presetAssign (pos index : Nat) : Owner := fun s =>
  match pos? pos with
  | none => (s, plain .range)
  | some p =>
    if h : index ≤ 4 then
      setPresets { s.setup with presetIndex := upd s.setup.presetIndex p fun _ => ⟨index, by omega⟩ } s
    else (s, plain .range)

/-! ## COUNTER READ and COUNTER RESET (R176) -/

/-- COUNTER READ (R176). -/
def counterRead (arm : Nat) (g : Setup) (L : Live) : Reply :=
  match arm? arm with
  | none => plain .range
  | some a =>
    done
      ((armPos a).flatMap (fun p =>
        [b4 (L.counter p), b1 (g.presetIndex[p]).val] ++ opt (applying g p) (fun v => [b4 v])) ++
        g.presets.toList.flatMap (fun v => opt v (fun n => [b4 n])))

/-- COUNTER RESET (R176). -/
def counterReset (pos : Nat) (_ : Setup) (L : Live) : Live × Reply :=
  match pos? pos with
  | none => (L, plain .range)
  | some p => ({ L with counters := upd L.counters p fun _ => 0 }, done [b4 (L.counter p)])

/-! ## The rows -/

/-- The owner of FAULT ACK (R165). -/
def ownFaultAck (number : Nat) : Owner := acting (faultAck number)

/-- FAULT ACK (R165). -/
def execFaultAck (number : Nat) (s : State) : Host.Outcome State Fault Refusal :=
  goes (takeRequest 36 0 (ownFaultAck number) s)

/-- The owner of FAULT CLEAR (R166). -/
def ownFaultClear (number : Nat) : Owner := driving (faultClear number)

/-- FAULT CLEAR (R166). -/
def execFaultClear (number : Nat) (s : State) : Host.Outcome State Fault Refusal :=
  goes (takeRequest 37 0 (ownFaultClear number) s)

/-- The owner of FAULT READ (R172). -/
def ownFaultRead (place count : Nat) : Owner := reading (faultRead place count)

/-- FAULT READ (R172). -/
def execFaultRead (place count : Nat) (s : State) : Host.Outcome State Fault Refusal :=
  goes (takeRequest 38 0 (ownFaultRead place count) s)

/-- The owner of PRESET SET, value form (R175). -/
def ownPresetSetValue (preset value : Nat) : Owner := presetValue preset value

/-- PRESET SET, value form (R175). -/
def execPresetSetValue (preset value : Nat) (s : State) : Host.Outcome State Fault Refusal :=
  goes (takeRequest 39 0 (ownPresetSetValue preset value) s)

/-- The owner of PRESET SET, assign form (R175). -/
def ownPresetSetAssign (pos index : Nat) : Owner := presetAssign pos index

/-- PRESET SET, assign form (R175). -/
def execPresetSetAssign (pos index : Nat) (s : State) : Host.Outcome State Fault Refusal :=
  goes (takeRequest 39 0 (ownPresetSetAssign pos index) s)

/-- The owner of COUNTER READ (R176). -/
def ownCounterRead (arm : Nat) : Owner := reading (counterRead arm)

/-- COUNTER READ (R176). -/
def execCounterRead (arm : Nat) (s : State) : Host.Outcome State Fault Refusal :=
  goes (takeRequest 40 0 (ownCounterRead arm) s)

/-- The owner of COUNTER RESET (R176). -/
def ownCounterReset (pos : Nat) : Owner := acting (counterReset pos)

/-- COUNTER RESET (R176). -/
def execCounterReset (pos : Nat) (s : State) : Host.Outcome State Fault Refusal :=
  goes (takeRequest 41 0 (ownCounterReset pos) s)

end Sys2Proof.Machine
end

