-- ==== Sys2Proof/Machine/ReqFill.lean ====
section
/-! DEFINITION. Requests of the fill and van unit: BAND SET, FILL READ, VAN OPEN, VAN CLOSE, VAN READ, and the meanings
of their rows. -/

namespace Sys2Proof.Machine

/-! ## BAND SET and FILL READ (R130, R132) -/

/-- The band's checks (R130). -/
def bandOk (low target high : Nat) : Bool := decide (low ≤ 64 ∧ target ≤ 64 ∧ high ≤ 64 ∧ low ≤ high)

/-- BAND SET (R130): the target clamped into the band, the fill state recomputed. -/
def bandSet (low target high : Nat) : Owner := fun s =>
  if bandOk low target high then
    let g := { s.setup with low := low, target := clamp low high target, high := high }
    ({ s with setup := g, live := refill g s.live }, done [b1 g.low, b1 g.target, b1 g.high])
  else (s, plain .range)

/-- The seven fill counts (R128). -/
def countsFlds (c : FillCounts) : List Fld :=
  [b1 c.usable, b1 c.hireable, b1 c.free, b1 c.reservedDocks, b1 c.reservedBikes, b1 c.other, b1 c.faulty]

/-- FILL READ (R132). -/
def fillRead (g : Setup) (L : Live) : Reply :=
  done
    ([b1 g.low, b1 g.target, b1 g.high, b1 (fillNum L.fillState)] ++ countsFlds L.fill ++
      [b1 (countPos fun p => (L.dock p).reservation = .vanPickup), b1 (countPos fun p => (L.dock p).reservation = .vanDrop)])

/-! ## VAN OPEN (R134–R136) -/

/-- The crew card may open a visit (R134). -/
def crewGood (L : Live) (card : CardId) : Bool :=
  match findCard L.cards card with
  | some r => r.role = .crew && r.status = .good && !r.expired L.clock.minute
  | none => false

/-- The checks of VAN OPEN in their order (R134): the reply of the first that fails, or none. -/
def vanOpenRefusal (card : CardId) (L : Live) : Option Reply :=
  if visitOn L then some (plain .busy)
  else if (L.power.state ≠ .run ∧ L.power.state ≠ .quiet) ∨ !L.clock.valid then
    some (refuse (.display .stationClosed))
  else if !crewGood L card then some (refuse .notCrew)
  else if !startClassRoom L then some (plain .full)
  else none

/-- The visit record that VAN OPEN makes (R135). -/
def newVisit (g : Setup) (van : VanId) (card : CardId) (window : Nat) (L : Live) : VisitRec :=
  { van := van, card := card, opening := L.clock.minute, window := window, secondsLeft := window * 60
    pickupsPlanned := planPickups g L, dropsPlanned := planDrops g L, collectionsPlanned := L.fill.faulty
    pickupsDone := 0, dropsDone := 0, collectionsDone := 0, close := none, summaryPending := false }

/-- Crew actions still in flight from before count toward no new visit (R139, R140, log 53). -/
def uncounted (cs : List CrewAction) : List CrewAction := cs.map fun c => { c with counted := false }

/-- VAN OPEN that passed its checks (R135, R136): VAN OPENED, the visit record, the reservations. -/
def openVisit (g : Setup) (van : VanId) (card : CardId) (window : Nat) (L : Live) : Live × Reply :=
  let v := newVisit g van card window L
  let pickups := firstPos v.pickupsPlanned (hireable L)
  let drops := firstPos v.dropsPlanned (freeDock L)
  let M :=
    append (now L) .station
      (.vanOpened van card window v.pickupsPlanned v.dropsPlanned v.collectionsPlanned) L
  let M := { M with visit := { state := .opened, data := some v }, crew := uncounted M.crew }
  (reserve g .vanDrop drops (reserve g .vanPickup pickups M),
    done ([b1 v.pickupsPlanned, b1 v.dropsPlanned, b1 v.collectionsPlanned] ++
      listOf (pickups ++ drops) fun p => [posFld p]))

/-- VAN OPEN (R134, R135). -/
def vanOpen (van : VanId) (card : CardId) (window : Nat) (g : Setup) (L : Live) : Live × Reply :=
  match vanOpenRefusal card L with
  | some r => (L, r)
  | none => openVisit g van card (clamp 5 120 window) L

/-! ## VAN CLOSE and VAN READ (R153, R154) -/

/-- Planned and done counts of a visit. -/
def visitCounts (v : VisitRec) : List Fld :=
  [b1 v.pickupsPlanned, b1 v.dropsPlanned, b1 v.collectionsPlanned, b1 v.pickupsDone, b1 v.dropsDone,
   b1 v.collectionsDone]

/-- VAN CLOSE (R153). -/
def vanClose (g : Setup) (L : Live) : Live × Reply :=
  if visitOn L then
    let M := closeVisit g .closed L
    (M, done (match M.visit.data with | some v => visitCounts v | none => []))
  else (L, plain .notFound)

/-- The visit's data with every field of R133. DESIGN CHOICE, log 34: the fields that R133 gives from VAN OPEN on have no
presence bytes, since the state byte before them tells whether they follow; seconds left, close reason, close minute and
summary pending are optional fields. -/
def visitFlds (st : VisitState) (v : VisitRec) : List Fld :=
  let left := if st = .opened ∨ st = .working then some v.secondsLeft else none
  [b4 v.van.toNat, b8 v.card.toNat, b4 v.opening, b1 v.window] ++ opt left (fun n => [b2 n]) ++ visitCounts v ++
    opt v.close (fun c => [b1 (closeNum c.1)]) ++ opt v.close (fun c => [b4 c.2.minute]) ++
    opt v.close (fun _ => [flag v.summaryPending])

/-- The positions that hold a reservation, in position order (R154). -/
def reservedPos (L : Live) : List Pos := allPos.filter fun p => (L.dock p).reservation ≠ .none

/-- A crew action as VAN READ returns it (R154), its latch state as an optional field (log 34). -/
def crewFlds (L : Live) (c : CrewAction) : List Fld :=
  [posFld c.pos, b1 (purposeNum c.purpose)] ++ opt (L.dock c.pos).latch (fun l => [b1 (latchNum l)]) ++
    [flag c.counted]

/-- VAN READ (R154). The crew actions stand in the order in which they were opened (log 62). -/
def vanRead (_ : Setup) (L : Live) : Reply :=
  match L.visit.data with
  | none => done [b1 (visitNum L.visit.state)]
  | some v =>
    done
      ([b1 (visitNum L.visit.state)] ++ visitFlds L.visit.state v ++
        listOf (reservedPos L)
          (fun p => [posFld p, b1 (reservationNum (L.dock p).reservation), flag (usable L p)]) ++
        listOf L.crew (crewFlds L) ++ [b1 (fillNum L.fillState), b1 L.fill.hireable, b1 L.fill.free])

/-! ## The rows -/

/-- The owner of BAND SET (R130). -/
def ownBandSet (low target high : Nat) : Owner := bandSet low target high

/-- BAND SET (R130). -/
def execBandSet (low target high : Nat) (s : State) : Host.Outcome State Fault Refusal :=
  goes (takeRequest 31 0 (ownBandSet low target high) s)

/-- The owner of FILL READ (R132). -/
def ownFillRead : Owner := reading fillRead

/-- FILL READ (R132). -/
def execFillRead (s : State) : Host.Outcome State Fault Refusal :=
  goes (takeRequest 32 0 ownFillRead s)

/-- The owner of VAN OPEN (R135). -/
def ownVanOpen (van : VanId) (card : CardId) (window : Nat) : Owner := acting (vanOpen van card window)

/-- VAN OPEN (R135). -/
def execVanOpen (van : VanId) (card : CardId) (window : Nat) (s : State) : Host.Outcome State Fault Refusal :=
  goes (takeRequest 33 0 (ownVanOpen van card window) s)

/-- The owner of VAN CLOSE (R153). -/
def ownVanClose : Owner := driving vanClose

/-- VAN CLOSE (R153). -/
def execVanClose (s : State) : Host.Outcome State Fault Refusal :=
  goes (takeRequest 34 0 ownVanClose s)

/-- The owner of VAN READ (R154). -/
def ownVanRead : Owner := reading vanRead

/-- VAN READ (R154). -/
def execVanRead (s : State) : Host.Outcome State Fault Refusal :=
  goes (takeRequest 35 0 ownVanRead s)

end Sys2Proof.Machine
end

