-- ==== Sys2Proof/Machine/ReqHire.lean ====
section
/-! DEFINITION. Requests of the hire engine: DOCK RESOLVE, REMOTE RELEASE, REMOTE READ, HIRE SETTINGS, and the meanings
of their rows. -/

namespace Sys2Proof.Machine

/-! ## DOCK RESOLVE (R80, R144) -/

/-- The position holds a release or a crew action in UNCERTAIN (R80, R144). -/
def uncertainJob (L : Live) (p : Pos) : Bool :=
  (L.dock p).latch = some .uncertain && ((findRelease L p).isSome || (findCrew L p).isSome)

/-- DOCK RESOLVE with outcome TAKEN at a position (R80). A position whose node became ABSENT, or is a kiosk now, loses the
settled latch. -/
def resolveTakenAt (p : Pos) (g : Setup) (L : Live) : Live × Reply :=
  if uncertainJob L p then
    let M :=
      match findRelease L p, findCrew L p with
      | some r, _ => uncertainTaken g r L
      | none, some c => crewUncertainTaken g c L
      | none, none => L
    (dropSettled g p M, done [])
  else (L, refuse .notUncertain)

/-- DOCK RESOLVE with outcome KEPT at a position (R80): the snapshot kept from before the unlatch stays where the latch
does, and the clearing entry is made of what then stands. -/
def resolveKeptAt (p : Pos) (g : Setup) (L : Live) : Live × Reply :=
  if uncertainJob L p then
    let snap := ((L.dock p).snapshot).getD .unread
    let M :=
      match findRelease L p, findCrew L p with
      | some r, _ => makeClearing r.bike r.stamp.start p (dropSettled g p (uncertainKept g r snap false L))
      | none, some c => dropSettled g p (crewUncertainKept g c snap L)
      | none, none => L
    (M, done [])
  else (L, refuse .notUncertain)

/-- A request at a position, refused RANGE outside A01 to D16. -/
def atPos (pos : Nat) (f : Pos → Setup → Live → Live × Reply) (g : Setup) (L : Live) : Live × Reply :=
  match pos? pos with
  | none => (L, plain .range)
  | some p => f p g L

/-- A dock record's snapshot holds the bike (R80). -/
def bikeInDock (L : Live) (b : BikeId) : Bool :=
  allPos.any fun p =>
    match (L.dock p).tag with
    | some t => t.bike = b
    | none => false

/-- DOCK RESOLVE with outcome GONE (R80). Of several entries of the bike the oldest leaves (log 25). -/
def resolveGone (bike : BikeId) (_ : Pos) (g : Setup) (L : Live) : Live × Reply :=
  match L.closing.find? fun e => e.bike = bike with
  | none => (L, plain .notFound)
  | some e => if bikeInDock L bike then (L, plain .inUse) else (leaveClosing g bike e.start L, done [])

/-- DOCK RESOLVE with outcome VACATE (R80, R168). -/
def resolveVacate (p : Pos) (g : Setup) (L : Live) : Live × Reply :=
  if numOf p ≤ (g.arms[armOf p]).expected then (L, refuse .inConfiguration)
  else if (L.dock p).inRotation then (L, refuse .inLink)
  else if (findRelease L p).isSome ∨ (findCrew L p).isSome then (L, refuse .inFlight)
  else (clearFaults g .vacate (barringAt L p) L, done [])

/-! ## REMOTE RELEASE and REMOTE READ (R81, R82) -/

/-- REMOTE RELEASE at a position (R81). -/
def remoteReleaseAt (tag : Byte) (card : CardId) (p : Pos) (g : Setup) (L : Live) : Live × Reply :=
  if (L.dock p).kind ≠ some .dock ∨ (L.dock p).link ≠ .ready then (L, refuse (.display .dockOutOfService))
  else if Config.remoteTableSize ≤ L.remotes.length then (L, plain .busy)
  else
    match decideRemote g p card L with
    | (some code, M) => (placeMessage p code M, refuse (.display code))
    | (none, M) =>
      ({ M with remotes := M.remotes ++ [{ tag := tag, pos := p, card := card, accepted := L.clock.minute
                                           ended := none }] }, plain .accepted)

/-- REMOTE RELEASE (R81). -/
def remoteRelease (tag : Byte) (pos : Nat) (card : CardId) : Setup → Live → Live × Reply :=
  atPos pos (remoteReleaseAt tag card)

/-- The result of an ENDED remote entry: result, reason, LATE flag (R82). -/
def remoteResultFlds : RemoteResult → List Fld
  | .done late => resultBytes .done none ++ [flag late]
  | .notTaken => resultBytes .refused (some .notTaken) ++ [flag false]
  | .refused c => resultBytes .refused (some (.display c)) ++ [flag false]

/-- An entry of the remote table as REMOTE READ returns it, its state 0 for PENDING and 1 for ENDED (R82; log 34). -/
def remoteFlds (e : RemoteRec) : List Fld :=
  [b1 e.ended.isSome.toNat, b1 e.tag.toNat, posFld e.pos, b8 e.card.toNat, b4 e.accepted] ++
    opt e.ended (fun x => [b4 x.2]) ++ opt e.ended (fun x => remoteResultFlds x.1)

/-- REMOTE READ (R82). -/
def remoteRead (_ : Setup) (L : Live) : Live × Reply :=
  ({ L with remotes := L.remotes.filter fun e => e.ended.isNone }, done (listOf L.remotes remoteFlds))

/-! ## HIRE SETTINGS (R93) -/

/-- HIRE SETTINGS (R93). -/
def hireSettings (take settle query : Nat) (g : Setup) (_ : Live) : Setup × Reply :=
  let h := { g with takeWindow := clamp 10 60 take, settleWindow := clamp 15 240 settle
                    queryTimeout := clamp 1 10 query }
  (h, done [b1 h.takeWindow, b1 h.settleWindow, b1 h.queryTimeout])

/-! ## The rows -/

/-- The owner of DOCK RESOLVE, TAKEN (R80). -/
def ownDockResolveTaken (pos : Nat) : Owner := driving (atPos pos resolveTakenAt)

/-- DOCK RESOLVE, TAKEN (R80). -/
def execDockResolveTaken (pos : Nat) (s : State) : Host.Outcome State Fault Refusal :=
  goes (takeRequest 22 0 (ownDockResolveTaken pos) s)

/-- The owner of DOCK RESOLVE, KEPT (R80). -/
def ownDockResolveKept (pos : Nat) : Owner := driving (atPos pos resolveKeptAt)

/-- DOCK RESOLVE, KEPT (R80). -/
def execDockResolveKept (pos : Nat) (s : State) : Host.Outcome State Fault Refusal :=
  goes (takeRequest 22 0 (ownDockResolveKept pos) s)

/-- The owner of DOCK RESOLVE, GONE (R80). -/
def ownDockResolveGone (pos : Nat) (bike : BikeId) : Owner := driving (atPos pos (resolveGone bike))

/-- DOCK RESOLVE, GONE (R80). -/
def execDockResolveGone (pos : Nat) (bike : BikeId) (s : State) : Host.Outcome State Fault Refusal :=
  goes (takeRequest 22 0 (ownDockResolveGone pos bike) s)

/-- The owner of DOCK RESOLVE, VACATE (R80). -/
def ownDockResolveVacate (pos : Nat) : Owner := driving (atPos pos resolveVacate)

/-- DOCK RESOLVE, VACATE (R80). -/
def execDockResolveVacate (pos : Nat) (s : State) : Host.Outcome State Fault Refusal :=
  goes (takeRequest 22 0 (ownDockResolveVacate pos) s)

/-- The owner of REMOTE RELEASE (R81). -/
def ownRemoteRelease (tag : Byte) (pos : Nat) (card : CardId) : Owner := driving (remoteRelease tag pos card)

/-- REMOTE RELEASE (R81). -/
def execRemoteRelease (tag : Byte) (pos : Nat) (card : CardId) (s : State) : Host.Outcome State Fault Refusal :=
  goes (takeRequest 23 tag (ownRemoteRelease tag pos card) s)

/-- The owner of REMOTE READ (R82). -/
def ownRemoteRead : Owner := acting remoteRead

/-- REMOTE READ (R82). -/
def execRemoteRead (s : State) : Host.Outcome State Fault Refusal :=
  goes (takeRequest 24 0 ownRemoteRead s)

/-- The owner of HIRE SETTINGS (R93). -/
def ownHireSettings (take settlement query : Nat) : Owner := setting (hireSettings take settlement query)

/-- HIRE SETTINGS (R93). -/
def execHireSettings (take settlement query : Nat) (s : State) : Host.Outcome State Fault Refusal :=
  goes (takeRequest 25 0 (ownHireSettings take settlement query) s)

end Sys2Proof.Machine
end

