-- ==== Sys2Proof/Machine/ReqJournal.lean ====
section
/-! DEFINITION. Requests of the journal: JOURNAL READ with the records' layout (R209), JOURNAL RELEASE, and the
meanings of their rows. -/

namespace Sys2Proof.Machine

/-! ## Records as returned (R209) -/

/-- The kind byte of a journal record (R209). -/
def JournalBody.num : JournalBody → Nat
  | .hireStart _ _ _ _ _ => 0
  | .passIssued _ _ _ _ _ => 1
  | .vanOpened _ _ _ _ _ _ => 2
  | .hireEnd _ _ => 3
  | .passClosed _ _ _ _ => 4
  | .vanVisit _ _ _ _ => 5
  | .bikeMove _ _ _ => 6
  | .faultOpened _ _ _ _ => 7
  | .faultCleared _ _ _ _ _ _ _ => 8

/-- The body of HIRE END, 58 bytes (R88, R209). -/
def hireEndFlds (s : Slot) (p : Pos) : List Fld :=
  let f := s.fare.getD { gross := 0, credit := 0, net := 0, duration := 0, revision := 0 }
  let t := s.settlement.getD { kind := .account, charged := 0, shortfall := 0, finalNet := 0 }
  stampFlds s.stamp ++
    [b4 (s.endMinute.getD 0), b2 f.duration, b4 f.gross, b4 f.credit, b4 t.finalNet, b4 t.charged, b4 t.shortfall,
     b1 (settleNum t.kind), b2 f.revision] ++
    flagFlds s.flags ++ [b1 (fillNum s.fill), posFld p]

/-- The body of a record, its fields in the order of R115. -/
def bodyFlds : JournalBody → List Fld
  | .hireStart stamp bike kind pos late =>
    stampFlds stamp ++ [b4 bike.toNat, b1 (bikeKindNum kind), posFld pos, flag late]
  | .passIssued plan hold expiry pos session => [b1 plan.val, b4 hold, b4 expiry, posFld pos, b2 session]
  | .vanOpened van card window p d c => [b4 van.toNat, b8 card.toNat, b1 window, b1 p, b1 d, b1 c]
  | .hireEnd slot pos => hireEndFlds slot pos
  | .passClosed issued remaining reason source =>
    let src := match source with
      | .kiosk p s => some (p, s)
      | .link => none
    [b4 issued, b4 remaining, b1 (closureNum reason)] ++ opt src (fun x => [posFld x.1]) ++ opt src (fun x => [b2 x.2])
  | .vanVisit van planned done reason =>
    [b4 van.toNat, b1 planned.1, b1 planned.2.1, b1 planned.2.2, b1 done.1, b1 done.2.1, b1 done.2.2,
     b1 (closeNum reason)]
  | .bikeMove reason bike merged => b1 (moveNum reason) :: opt bike (fun b => [b4 b.toNat]) ++ [b1 merged]
  | .faultOpened n kind barring detail => [b2 n, b1 (faultNum kind), flag barring] ++ detailFlds detail
  | .faultCleared n kind repeats opening last barring means =>
    [b2 n, b1 (faultNum kind), b2 repeats, b4 opening, b4 last, flag barring] ++ meansFlds means

/-- The subject's type and its value in 6 bytes, a card ID's low 6 (R209); a shorter value stands in the first of them, zeros
after it (log 34). -/
def headSubject : Subject → List Fld
  | .position p => [b1 0, { size := 6, value := p.val }]
  | .bike b => [b1 1, { size := 6, value := b.toNat }]
  | .card c => [b1 2, { size := 6, value := c.toNat % 281474976710656 }]
  | .arm a => [b1 3, { size := 6, value := a.val }]
  | .station => [b1 4, { size := 6, value := 0 }]

/-- The high 2 bytes of a card subject, which begin the body (R209). -/
def cardHigh : Subject → List Fld
  | .card c => [b2 (c.toNat / 281474976710656)]
  | _ => []

/-- A record as JOURNAL READ returns it: the 18-byte head and the body (R209). -/
def recordFlds (r : JournalRec) : List Fld :=
  let body := cardHigh r.subject ++ bodyFlds r.body
  [b4 r.seq, b1 r.body.num, flag r.at_.unset, b4 r.at_.minute] ++ headSubject r.subject ++ [b1 (bodySize body)] ++ body

/-! ## JOURNAL READ (R122, R209) -/

/-- The records placed in what is left of a reply: oldest first, stopping before one that would not fit (R209). -/
def placeRecords : Nat → List JournalRec → List JournalRec
  | _, [] => []
  | left, r :: rs =>
    if bodySize (recordFlds r) ≤ left then r :: placeRecords (left - bodySize (recordFlds r)) rs else []

/-- The records from sequence s, up to c of them, that fit a reply (R122, R209). -/
def recordsFrom (s c : Nat) (L : Live) : List JournalRec :=
  placeRecords (Config.maxBody - 4 - bodySize (journalFigures L)) ((L.journal.ring.filter fun r => s ≤ r.seq).take c)

/-- A record beyond the last one placed is held (R209). -/
def moreBeyond (s : Nat) (placed : List JournalRec) (L : Live) : Bool :=
  decide (placed.length < (L.journal.ring.filter fun r => s ≤ r.seq).length)

/-- JOURNAL READ (R122). -/
def journalRead (s c : Nat) (_ : Setup) (L : Live) : Reply :=
  if c = 0 ∨ 8 < c then plain .range
  else
    let rs := recordsFrom s c L
    done (journalFigures L ++ [flag (moreBeyond s rs L)] ++ listOf rs recordFlds)

/-! ## JOURNAL RELEASE (R123) -/

/-- JOURNAL RELEASE (R123): the records through s leave, the waiting writers are served, then the reply is made. -/
def journalRelease (s : Nat) (g : Setup) (L : Live) : Live × Reply :=
  if L.journal.lastIssued < s then (L, plain .range)
  else
    let kept := L.journal.ring.filter fun r => s < r.seq
    let removed := L.journal.ring.length - kept.length
    let M := if removed = 0 then L else serve g { L with journal := { L.journal with ring := kept } }
    (M, done (b2 removed :: journalFigures M))

/-! ## The rows -/

/-- The owner of JOURNAL READ (R122). -/
def ownJournalRead (start count : Nat) : Owner := reading (journalRead start count)

/-- JOURNAL READ (R122). -/
def execJournalRead (start count : Nat) (s : State) : Host.Outcome State Fault Refusal :=
  goes (takeRequest 29 0 (ownJournalRead start count) s)

/-- The owner of JOURNAL RELEASE (R123). -/
def ownJournalRelease (through : Nat) : Owner := driving (journalRelease through)

/-- JOURNAL RELEASE (R123). -/
def execJournalRelease (through : Nat) (s : State) : Host.Outcome State Fault Refusal :=
  goes (takeRequest 30 0 (ownJournalRelease through) s)

end Sys2Proof.Machine
end

