-- ==== Sys2Proof/Machine/ReqTariff.lean ====
section
/-! DEFINITION. Requests of the fare unit: TARIFF STAGE, TARIFF COMMIT, TARIFF READ, and the meanings of their rows. -/

namespace Sys2Proof.Machine

/-- TARIFF STAGE (R97). -/
def tariffStage (plan : Nat) (fields : PlanFields) (g : Setup) (_ : Live) : Setup × Reply :=
  match plan? plan with
  | none => (g, plain .range)
  | some c =>
    if planOk fields then
      ({ g with staging := { g.staging with plans := upd g.staging.plans c fun _ => fields }, edited := true }, done [])
    else (g, plain .range)

/-- TARIFF COMMIT (R98). -/
def tariffCommit (r : Nat) (g : Setup) (_ : Live) : Setup × Reply :=
  if r = 0 ∨ 65535 < r then (g, plain .range)
  else if r = g.current.revision ∨ r = g.previous.revision then (g, refuse .revisionUsed)
  else
    let new : Generation := { g.staging with revision := r }
    ({ g with previous := g.current, current := new, staging := new, edited := false },
      done [b2 r, b2 g.current.revision])

/-- The eight fields of a plan record (R95). -/
def planFlds (p : PlanFields) : List Fld := [b1 p.F, b1 p.B, b4 p.P, b4 p.E, b4 p.C, b4 p.K, b1 p.W, b4 p.M]

/-- A generation's revision and plans (R99), eight records without a count byte (log 34). -/
def generationFlds (t : Generation) : List Fld := b2 t.revision :: t.plans.toList.flatMap planFlds

/-- TARIFF READ (R99): CURRENT 0, PREVIOUS 1, STAGING 2 (log 33; the spec gives them no numbers). The edited flag of
STAGING stands without a presence byte (log 34). -/
def tariffRead (generation : Nat) (g : Setup) (_ : Live) : Reply :=
  match generation with
  | 0 => done (generationFlds g.current)
  | 1 => done (generationFlds g.previous)
  | 2 => done (generationFlds g.staging ++ [flag g.edited])
  | _ => plain .range

/-! ## The rows -/

/-- The owner of TARIFF STAGE (R97). -/
def ownTariffStage (plan : Nat) (fields : PlanFields) : Owner := setting (tariffStage plan fields)

/-- TARIFF STAGE (R97). -/
def execTariffStage (plan : Nat) (fields : PlanFields) (s : State) : Host.Outcome State Fault Refusal :=
  goes (takeRequest 26 0 (ownTariffStage plan fields) s)

/-- The owner of TARIFF COMMIT (R98). -/
def ownTariffCommit (revision : Nat) : Owner := setting (tariffCommit revision)

/-- TARIFF COMMIT (R98). -/
def execTariffCommit (revision : Nat) (s : State) : Host.Outcome State Fault Refusal :=
  goes (takeRequest 27 0 (ownTariffCommit revision) s)

/-- The owner of TARIFF READ (R99). -/
def ownTariffRead (generation : Nat) : Owner := reading (tariffRead generation)

/-- TARIFF READ (R99). -/
def execTariffRead (generation : Nat) (s : State) : Host.Outcome State Fault Refusal :=
  goes (takeRequest 28 0 (ownTariffRead generation) s)

end Sys2Proof.Machine
end

