-- ==== Sys2Proof/Machine/Frames.lean ====
section
/-! DEFINITION. The host port's receiver and request bodies (R195–R198, R207): bytes collected into frames, frames
taken, answered BUSY or discarded, bodies read as requests (log 33 says how the layouts were read). -/

namespace Sys2Proof.Machine

/-! ## Bodies as requests (R207) -/

/-- A flag byte: 0 or 1. -/
def flagAt (off : Nat) (body : List Byte) : Option Bool :=
  match numAt off 1 body with
  | 0 => some false
  | 1 => some true
  | _ => none

/-- A body of exactly this length. -/
def sized (n : Nat) (body : List Byte) (o : Option Owner) : Option Owner := if body.length = n then o else none

/-- An optional field: its presence byte, then its bytes (R207). -/
def optField (size : Nat) (bs : List Byte) : Option (Option Nat × List Byte) :=
  match bs with
  | [] => none
  | b :: rest =>
    if b = 0 then some (none, rest)
    else if b = 1 ∧ size ≤ rest.length then some (some (leNat (rest.take size)), rest.drop size)
    else none

/-- The items of a CLEAR ATTENTION list: an event kind carries its raise count, a condition kind nothing (R204). -/
def clearItems : Nat → List Byte → Option (List ClearItem × List Byte)
  | 0, bs => some ([], bs)
  | _ + 1, [] => none
  | n + 1, k :: bs =>
    if k.toNat < 9 then
      match bs with
      | [] => none
      | c :: rest => (clearItems n rest).map fun x => ({ kind := k.toNat, count := c.toNat } :: x.1, x.2)
    else (clearItems n bs).map fun x => ({ kind := k.toNat, count := 0 } :: x.1, x.2)

/-- CLEAR ATTENTION's body: a count byte and its items. -/
def readClear (body : List Byte) : Option Owner :=
  match body with
  | [] => none
  | n :: bs =>
    match clearItems n.toNat bs with
    | some (items, []) => some (ownClearAttention items)
    | _ => none

/-- START ORDER's body: the list of R182, its count byte and its arm letters (R207). -/
def readStartOrder (body : List Byte) : Option Owner :=
  match body with
  | [] => none
  | n :: arms => if arms.length = n.toNat then some (ownStartOrder (arms.map (·.toNat))) else none

/-- A role byte (R49). -/
def role? : Nat → Option Role
  | 0 => some .member
  | 1 => some .pass
  | 2 => some .crew
  | _ => none

/-- A status byte (R49). -/
def status? : Nat → Option CardStatus
  | 0 => some .good
  | 1 => some .blocked
  | _ => none

/-- CARD PUT's body (R50): card ID, role, plan class, allowance, status, then four optional fields. -/
def readCardPut (body : List Byte) : Option Owner :=
  if body.length < 12 then none
  else
    match role? (numAt 8 1 body), status? (numAt 11 1 body) with
    | some role, some status =>
      match optField 4 (body.drop 12) with
      | none => none
      | some (expiry, bs) =>
        match optField 1 bs with
        | none => none
        | some (out, bs) =>
          match optField 4 bs with
          | none => none
          | some (issued, bs) =>
            match optField 4 bs with
            | some (remaining, []) =>
              some
                (ownCardPut
                  { card := BitVec.ofNat 64 (numAt 0 8 body), role := role, plan := numAt 9 1 body
                    allowance := numAt 10 1 body, status := status, expiry := expiry, outCount := out
                    holdIssued := issued, holdRemaining := remaining })
            | _ => none
    | _, _ => none

/-- DOCK RESOLVE's body (R80): position, outcome, and a bike ID with GONE only. DESIGN CHOICE, log 33: the outcome byte tells
whether the bike ID follows, so it is no optional field of R207 and has no presence byte. The body is 6 bytes with GONE and
2 with the other outcomes, which are numbered in the order of R80's table. -/
def readResolve (body : List Byte) : Option Owner :=
  let pos := numAt 0 1 body
  if body.length = 2 then
    match numAt 1 1 body with
    | 0 => some (ownDockResolveTaken pos)
    | 1 => some (ownDockResolveKept pos)
    | 3 => some (ownDockResolveVacate pos)
    | _ => none
  else if body.length = 6 ∧ numAt 1 1 body = 2 then
    some (ownDockResolveGone pos (BitVec.ofNat 32 (numAt 2 4 body)))
  else none

/-- ARM SERVICE's body (R187): arm letter, ENTER 0 or LEAVE 1. -/
def readArmService (body : List Byte) : Option Owner :=
  match numAt 1 1 body with
  | 0 => some (ownArmServiceEnter (numAt 0 1 body))
  | 1 => some (ownArmServiceLeave (numAt 0 1 body))
  | _ => none

/-- ARM CONFIGURE's body (R1). -/
def readArmConfigure (body : List Byte) : Option Owner :=
  match flagAt 2 body, flagAt 3 body, flagAt 4 body with
  | some night, some keep, some service =>
    some (ownArmConfigure (numAt 0 1 body) (numAt 1 1 body) night keep service)
  | _, _, _ => none

/-- TARIFF STAGE's body (R97). -/
def readTariffStage (body : List Byte) : Option Owner :=
  some
    (ownTariffStage (numAt 0 1 body)
      { F := numAt 1 1 body, B := numAt 2 1 body, P := numAt 3 4 body, E := numAt 7 4 body, C := numAt 11 4 body
        K := numAt 15 4 body, W := numAt 19 1 body, M := numAt 20 4 body })

/-- PRESET SET's body in its value form (preset number, value) or its assign form (position, index) (R175). -/
def readPreset (body : List Byte) : Option Owner :=
  if body.length = 5 then some (ownPresetSetValue (numAt 0 1 body) (numAt 1 4 body))
  else if body.length = 2 then some (ownPresetSetAssign (numAt 0 1 body) (numAt 1 1 body))
  else none

/-- The owner's part in a request whose body length its layout allows; none is refused RANGE (R198). The kinds are
numbered as R207 states. -/
def readRequest (kind tag : Byte) (body : List Byte) : Option Owner :=
  let card := BitVec.ofNat 64 (numAt 0 8 body)
  let n := numAt 0 1 body
  match kind.toNat with
  | 1 => sized 0 body (some ownStatus)
  | 2 => readClear body
  | 3 => sized 6 body ((flagAt 5 body).map fun f => ownSetTime (numAt 0 4 body) (numAt 4 1 body) f)
  | 4 => sized 0 body (some ownReadTime)
  | 5 => sized 4 body (some (ownStationSetup (numAt 0 2 body) (numAt 2 2 body)))
  | 6 => readStartOrder body
  | 7 => sized 1 body ((flagAt 0 body).map fun on => if on then ownQuietOn else ownQuietOff)
  | 8 => sized 2 body (readArmService body)
  | 9 => sized 0 body (some ownRestart)
  | 10 => sized 0 body (some ownColdClear)
  | 11 => sized 5 body (readArmConfigure body)
  | 12 => sized 1 body (some (ownArmDiscover n))
  | 13 => sized 1 body (some (ownArmOff n))
  | 14 => sized 1 body (some (ownShowAll n))
  | 15 => sized 1 body (some (ownDockRead n))
  | 16 => readCardPut body
  | 17 => sized 8 body (some (ownCardDrop card))
  | 18 => sized 8 body (some (ownCardRead card))
  | 19 => sized 1 body (some (ownCardPage n))
  | 20 => sized 8 body (some (ownCardUnknown card))
  | 21 => sized 0 body (some ownQueryRead)
  | 22 => readResolve body
  | 23 => sized 9 body (some (ownRemoteRelease tag n (BitVec.ofNat 64 (numAt 1 8 body))))
  | 24 => sized 0 body (some ownRemoteRead)
  | 25 => sized 3 body (some (ownHireSettings n (numAt 1 1 body) (numAt 2 1 body)))
  | 26 => sized 24 body (readTariffStage body)
  | 27 => sized 2 body (some (ownTariffCommit (numAt 0 2 body)))
  | 28 => sized 1 body (some (ownTariffRead n))
  | 29 => sized 5 body (some (ownJournalRead (numAt 0 4 body) (numAt 4 1 body)))
  | 30 => sized 4 body (some (ownJournalRelease (numAt 0 4 body)))
  | 31 => sized 3 body (some (ownBandSet n (numAt 1 1 body) (numAt 2 1 body)))
  | 32 => sized 0 body (some ownFillRead)
  | 33 =>
    sized 13 body
      (some (ownVanOpen (BitVec.ofNat 32 (numAt 0 4 body)) (BitVec.ofNat 64 (numAt 4 8 body)) (numAt 12 1 body)))
  | 34 => sized 0 body (some ownVanClose)
  | 35 => sized 0 body (some ownVanRead)
  | 36 => sized 2 body (some (ownFaultAck (numAt 0 2 body)))
  | 37 => sized 2 body (some (ownFaultClear (numAt 0 2 body)))
  | 38 => sized 2 body (some (ownFaultRead n (numAt 1 1 body)))
  | 39 => readPreset body
  | 40 => sized 1 body (some (ownCounterRead n))
  | 41 => sized 1 body (some (ownCounterReset n))
  | _ => none

/-! ## Requests taken (R197, R198) -/

/-- The kind byte names a request (R198, R207). -/
def kindNamed (kind : Byte) : Bool := decide (1 ≤ kind.toNat ∧ kind.toNat ≤ 41)

/-- The request in hand is checked in the order of R198 and handed to its owner. -/
def dispatch (kind tag : Byte) (body : List Byte) (s : State) : State :=
  if s.live.boot.isSome then setInHand kind tag (plain .busy) s
  else if !kindNamed kind then setInHand kind tag (plain .unknownKind) s
  else if s.live.power.state = .off ∧ kind ≠ 1 then setInHand kind tag (plain .powerOff) s
  else
    match readRequest kind tag body with
    | none => setInHand kind tag (plain .range) s
    | some owner => setInHand kind tag (owner s).2 (owner s).1

/-- What becomes of a complete frame (R197). -/
def takeFrame (kind tag : Byte) (body : List Byte) (s : State) : State :=
  match s.live.port.inHand, s.live.port.busy with
  | none, _ => dispatch kind tag body s
  | some _, none => { s with live := { s.live with port := { s.live.port with busy := some (kind, tag) } } }
  | some _, some _ => s

/-! ## The receiver (R195, R196) -/

/-- What the receiver finds in the bytes it holds. -/
inductive Scan where
  /-- hunting, or collecting a frame that is not complete yet -/
  | collect (rx : List Byte)
  /-- a damaged frame: it hunts again from the byte after the sync byte -/
  | discard (rest : List Byte)
  /-- a complete frame -/
  | complete (kind tag : Byte) (body rest : List Byte)
deriving DecidableEq, Repr

/-- One look at the bytes held (R195, R196): bytes before a sync byte are discarded, a length above 240 or a CRC that
does not match discards the frame. -/
def scan (bs : List Byte) : Scan :=
  match bs.dropWhile fun b => b ≠ Config.sync with
  | [] => .collect []
  | [s] => .collect [s]
  | s :: len :: rest =>
    if Config.maxBody < len.toNat then .discard (len :: rest)
    else if rest.length < len.toNat + 4 then .collect (s :: len :: rest)
    else if (rest.drop (len.toNat + 2)).take 2 = crcBytes (len :: rest.take (len.toNat + 2)) then
      match rest with
      | kind :: tag :: more => .complete kind tag (more.take len.toNat) (more.drop (len.toNat + 2))
      | _ => .discard (len :: rest)
    else .discard (len :: rest)

/-- The bytes held, as the receiver stores them. -/
def setRx (rx : List Byte) (s : State) : State := { s with live := { s.live with port := { s.live.port with rx := rx } } }

/-- The receiver works through the bytes it holds (R196, R197); every look but the last uses up at least one byte. -/
def receive : Nat → List Byte → State → State
  | 0, bs, s => setRx bs s
  | n + 1, bs, s =>
    match scan bs with
    | .collect rx => setRx rx s
    | .discard rest => receive n rest s
    | .complete kind tag body rest => receive n rest (takeFrame kind tag body s)

/-- Bytes arrive on the host link without a gap (R195, log 44). -/
def receiveBytes (bytes : List Byte) (s : State) : State :=
  let bs := s.live.port.rx ++ bytes
  if s.live.powered then receive (bs.length + 1) bs (setRx [] s) else s

/-! ## The rows -/

/-- Bytes of request frames arrive (R195–R198). -/
def execHostFrame (bytes : List Byte) (s : State) : Host.Outcome State Fault Refusal := goes (receiveBytes bytes s)

/-- A gap of more than 2 ms discards the frame being collected (R196). -/
def execFrameGap (s : State) : Host.Outcome State Fault Refusal := goes (if s.live.powered then setRx [] s else s)

/-- The last character of a reply is sent (R192, R197). -/
def execReplySent (s : State) : Host.Outcome State Fault Refusal := goes (if s.live.powered then replyDone s else s)

end Sys2Proof.Machine
end

