-- ==== Sys2Proof/Machine/Dispatch.lean ====
section
/-! DEFINITION. exec: one arm per command, each a direct call of its meaning. -/

namespace Sys2Proof.Machine

/-- The effect of a command on everything but the queue of waiting commands. -/
def exec (i : Instr) (s : State) : Host.Outcome State Fault Refusal :=
  match i with
  | .status => Sys2Proof.Machine.execStatus s
  | .clearAttention items => Sys2Proof.Machine.execClearAttention items s
  | .setTime minute second force => Sys2Proof.Machine.execSetTime minute second force s
  | .readTime => Sys2Proof.Machine.execReadTime s
  | .stationSetup station slotMs => Sys2Proof.Machine.execStationSetup station slotMs s
  | .startOrder arms => Sys2Proof.Machine.execStartOrder arms s
  | .quietOn => Sys2Proof.Machine.execQuietOn s
  | .quietOff => Sys2Proof.Machine.execQuietOff s
  | .armServiceEnter arm => Sys2Proof.Machine.execArmServiceEnter arm s
  | .armServiceLeave arm => Sys2Proof.Machine.execArmServiceLeave arm s
  | .restart => Sys2Proof.Machine.execRestart s
  | .coldClear => Sys2Proof.Machine.execColdClear s
  | .armConfigure arm expected nightOff holdoverKeep service => Sys2Proof.Machine.execArmConfigure arm expected nightOff holdoverKeep service s
  | .armDiscover arm => Sys2Proof.Machine.execArmDiscover arm s
  | .armOff arm => Sys2Proof.Machine.execArmOff arm s
  | .showAll code => Sys2Proof.Machine.execShowAll code s
  | .dockRead pos => Sys2Proof.Machine.execDockRead pos s
  | .cardPut fields => Sys2Proof.Machine.execCardPut fields s
  | .cardDrop card => Sys2Proof.Machine.execCardDrop card s
  | .cardRead card => Sys2Proof.Machine.execCardRead card s
  | .cardPage page => Sys2Proof.Machine.execCardPage page s
  | .cardUnknown card => Sys2Proof.Machine.execCardUnknown card s
  | .queryRead => Sys2Proof.Machine.execQueryRead s
  | .dockResolveTaken pos => Sys2Proof.Machine.execDockResolveTaken pos s
  | .dockResolveKept pos => Sys2Proof.Machine.execDockResolveKept pos s
  | .dockResolveGone pos bike => Sys2Proof.Machine.execDockResolveGone pos bike s
  | .dockResolveVacate pos => Sys2Proof.Machine.execDockResolveVacate pos s
  | .remoteRelease tag pos card => Sys2Proof.Machine.execRemoteRelease tag pos card s
  | .remoteRead => Sys2Proof.Machine.execRemoteRead s
  | .hireSettings take settlement query => Sys2Proof.Machine.execHireSettings take settlement query s
  | .tariffStage plan fields => Sys2Proof.Machine.execTariffStage plan fields s
  | .tariffCommit revision => Sys2Proof.Machine.execTariffCommit revision s
  | .tariffRead generation => Sys2Proof.Machine.execTariffRead generation s
  | .journalRead start count => Sys2Proof.Machine.execJournalRead start count s
  | .journalRelease through => Sys2Proof.Machine.execJournalRelease through s
  | .bandSet low target high => Sys2Proof.Machine.execBandSet low target high s
  | .fillRead => Sys2Proof.Machine.execFillRead s
  | .vanOpen van card window => Sys2Proof.Machine.execVanOpen van card window s
  | .vanClose => Sys2Proof.Machine.execVanClose s
  | .vanRead => Sys2Proof.Machine.execVanRead s
  | .faultAck number => Sys2Proof.Machine.execFaultAck number s
  | .faultClear number => Sys2Proof.Machine.execFaultClear number s
  | .faultRead place count => Sys2Proof.Machine.execFaultRead place count s
  | .presetSetValue preset value => Sys2Proof.Machine.execPresetSetValue preset value s
  | .presetSetAssign pos index => Sys2Proof.Machine.execPresetSetAssign pos index s
  | .counterRead arm => Sys2Proof.Machine.execCounterRead arm s
  | .counterReset pos => Sys2Proof.Machine.execCounterReset pos s
  | .hostFrame bytes => Sys2Proof.Machine.execHostFrame bytes s
  | .frameGap => Sys2Proof.Machine.execFrameGap s
  | .replySent => Sys2Proof.Machine.execReplySent s
  | .mainsOkTrue => Sys2Proof.Machine.execMainsOkTrue s
  | .mainsOkFalse => Sys2Proof.Machine.execMainsOkFalse s
  | .battLowTrue => Sys2Proof.Machine.execBattLowTrue s
  | .battLowFalse => Sys2Proof.Machine.execBattLowFalse s
  | .serviceLineAsserted => Sys2Proof.Machine.execServiceLineAsserted s
  | .serviceLineReleased => Sys2Proof.Machine.execServiceLineReleased s
  | .sequenceStep => Sys2Proof.Machine.execSequenceStep s
  | .resetPin => Sys2Proof.Machine.execResetPin s
  | .powerApplied batteryFlat => Sys2Proof.Machine.execPowerApplied batteryFlat s
  | .clockTick => Sys2Proof.Machine.execClockTick s
  | .pollAnswer arm answer => Sys2Proof.Machine.execPollAnswer arm answer s
  | .commandAnswer arm answer => Sys2Proof.Machine.execCommandAnswer arm answer s
  | .discoveryIdentifyAnswer arm answer => Sys2Proof.Machine.execDiscoveryIdentifyAnswer arm answer s
  | .recoveryProbeAnswer arm answer => Sys2Proof.Machine.execRecoveryProbeAnswer arm answer s
  | .passPowerAnswer arm answer => Sys2Proof.Machine.execPassPowerAnswer arm answer s
  | .switchReportAnswer arm switch sense => Sys2Proof.Machine.execSwitchReportAnswer arm switch sense s
  | .openSwitchAnswer arm answer => Sys2Proof.Machine.execOpenSwitchAnswer arm answer s
  | .answerTimeout arm => Sys2Proof.Machine.execAnswerTimeout arm s
  | .identifyTimeout arm => Sys2Proof.Machine.execIdentifyTimeout arm s
  | .recoveryTimer pos => Sys2Proof.Machine.execRecoveryTimer pos s
  | .slotExpiry arm => Sys2Proof.Machine.execSlotExpiry arm s
  | .rootSenseReading arm sense => Sys2Proof.Machine.execRootSenseReading arm sense s
  | .queryTimeout card => Sys2Proof.Machine.execQueryTimeout card s
  | .settlementWindowExpiry pos => Sys2Proof.Machine.execSettlementWindowExpiry pos s
  | .vanWindowExpiry => Sys2Proof.Machine.execVanWindowExpiry s
  | .startupLineRead mainsOk battLow service => Sys2Proof.Machine.execStartupLineRead mainsOk battLow service s
  | .powerRemoved => Sys2Proof.Machine.execPowerRemoved s

end Sys2Proof.Machine
end

