-- ==== Sys2Proof/WellFormed.lean ====
section
/-! DEFINITION. Well-formed commands: every operand fits the field that carries it (R207), a node reports at most 4
events (R14) and keeps to the ranges of R27 and R62, and a clear list names at most 255 items (its count byte). -/

namespace Sys2Proof

/-- A number that fits one byte (R207). -/
def fits1 (n : Nat) : Bool := n < 256

/-- A number that fits two bytes (R207). -/
def fits2 (n : Nat) : Bool := n < 65536

/-- A number that fits four bytes (R207). -/
def fits4 (n : Nat) : Bool := n < 4294967296

/-- A number that fits two bytes and is not 0: a station number, a session number (spec 00, R49). -/
def fits2pos (n : Nat) : Bool := 0 < n && n < 65536

/-- A stamp within the ranges of R27; the origin position is a byte (R208). -/
def Stamp.wf (s : Stamp) : Bool :=
  fits4 s.start && fits2pos s.originStation && fits1 s.originPos && fits2 s.revision

/-- A stamp state within the ranges of R27. -/
def TagStamp.wf : TagStamp → Bool
  | .none => true
  | .opened s => s.wf
  | .closed s m => s.wf && fits4 m

/-- A tag record within the ranges of R27. The marking station is 0 when it was unset (R190). -/
def Tag.wf (t : Tag) : Bool :=
  t.stamp.wf && (match t.mark with | none => true | some m => fits4 m.minute && fits2 m.station)

/-- A snapshot within the ranges of R27. -/
def Snapshot.wf : Snapshot → Bool
  | .unread => true
  | .read t => t.wf

/-- A node event within its ranges (R43, R62). -/
def NodeEvent.wf : NodeEvent → Bool
  | .bikeIn s => s.wf
  | .relatched s => s.wf
  | .passHeld _ _ hold validity session => fits4 hold && fits2 validity && fits2pos session
  | _ => true

/-- At most 4 pending events (R14), each within its ranges. -/
def PollAnswer.wf (a : PollAnswer) : Bool :=
  decide (a.events.length ≤ 4) && a.events.all NodeEvent.wf

/-- An IDENTIFY answer whose snapshot, if any, is within the ranges of R27. -/
def IdentifyAnswer.wf (a : IdentifyAnswer) : Bool :=
  match a.report with
  | .dock _ (some s) => s.wf
  | _ => true

/-- A CARD PUT whose numbers fit their fields (R207). -/
def CardPut.wf (c : CardPut) : Bool :=
  fits1 c.plan && fits1 c.allowance && c.expiry.all fits4 && c.outCount.all fits1 &&
    c.holdIssued.all fits4 && c.holdRemaining.all fits4

/-- Plan fields that fit their fields (R207). -/
def PlanFields.wf (p : PlanFields) : Bool :=
  fits1 p.F && fits1 p.B && fits4 p.P && fits4 p.E && fits4 p.C && fits4 p.K && fits1 p.W && fits4 p.M

/-- The check of every command's operands. -/
def Instr.wf : Instr → Bool
  | .clearAttention items => decide (items.length ≤ 255) && items.all (fun i => fits1 i.kind && fits1 i.count)
  | .setTime m s _ => fits4 m && fits1 s
  | .stationSetup n ms => fits2 n && fits2 ms
  | .startOrder arms => decide (arms.length ≤ 255) && arms.all fits1
  | .armServiceEnter a | .armServiceLeave a | .armDiscover a | .armOff a | .counterRead a => fits1 a
  | .armConfigure a n _ _ _ => fits1 a && fits1 n
  | .showAll c => fits1 c
  | .dockRead p | .dockResolveTaken p | .dockResolveKept p | .dockResolveGone p _ | .dockResolveVacate p
  | .remoteRelease _ p _ | .counterReset p => fits1 p
  | .cardPut c => c.wf
  | .cardPage p => fits1 p
  | .hireSettings t s q => fits1 t && fits1 s && fits1 q
  | .tariffStage c p => fits1 c && p.wf
  | .tariffCommit r => fits4 r
  | .tariffRead g => fits1 g
  | .journalRead s c => fits4 s && fits1 c
  | .journalRelease s => fits4 s
  | .bandSet l t h => fits1 l && fits1 t && fits1 h
  | .vanOpen _ _ w => fits1 w
  | .faultAck n | .faultClear n => fits2 n
  | .faultRead p c => fits1 p && fits1 c
  | .presetSetValue n v => fits1 n && fits4 v
  | .presetSetAssign p i => fits1 p && fits1 i
  | .pollAnswer _ a => a.wf
  | .discoveryIdentifyAnswer _ a | .recoveryProbeAnswer _ a => a.wf
  | .status | .readTime | .quietOn | .quietOff | .restart | .coldClear | .cardDrop _ | .cardRead _ | .cardUnknown _
  | .queryRead | .remoteRead | .fillRead | .vanClose | .vanRead | .hostFrame _ | .frameGap | .replySent
  | .mainsOkTrue | .mainsOkFalse | .battLowTrue | .battLowFalse | .serviceLineAsserted | .serviceLineReleased
  | .sequenceStep | .resetPin | .powerApplied _ | .clockTick | .commandAnswer _ _ | .passPowerAnswer _ _
  | .switchReportAnswer _ _ _ | .openSwitchAnswer _ _ | .answerTimeout _ | .identifyTimeout _ | .recoveryTimer _
  | .slotExpiry _ | .rootSenseReading _ _ | .queryTimeout _ | .settlementWindowExpiry _ | .vanWindowExpiry
  | .startupLineRead _ _ _ | .powerRemoved => true

end Sys2Proof
end

