-- ==== Sys2Proof/Safety.lean ====
section
/-! DEFINITION. The terms in which statements about the SC64 are made: what a safe run is, when the part works and takes
requests, the ranges its settings keep, and what a request row carries on the host link. -/

namespace Sys2Proof.Machine

/-- A step is safe where it answers a next state: no command stops the part. -/
def SafeStep (s : State) : Prop := ∃ t, step s = .next t

/-- The part has its supply and no start-up waits for its lines (R193, R202). -/
def Working (s : State) : Prop := s.live.powered = true ∧ s.live.boot = none

/-- The part works and is out of OFF: requests reach their owners (R198). -/
def Taking (s : State) : Prop := Working s ∧ s.live.power.state ≠ .off

/-- Arm a is polling the READY node at its position k (R13). -/
def Polling (a : Arm) (k : Nat) (s : State) : Prop :=
  Working s ∧ (s.live.arm a).state.active = true ∧ 1 ≤ k ∧ k ≤ 16 ∧ (s.live.dock (posAt a k)).link = .ready ∧
    ∃ code replaced acks, (s.live.arm a).txn = some (.poll k code replaced acks)

/-- An answer to that poll with these events, under a number that was not the last one taken (R14), is taken: the settings
and the waiting commands stay, and P holds of the part then. -/
def Reports (a : Arm) (k : Nat) (events : List NodeEvent) (s : State) (P : Live → Prop) : Prop :=
  ∀ n : Byte, (s.live.link (posAt a k)).lastAnswer ≠ some n →
    ∃ t : State, exec (.pollAnswer a { number := n, events := events, overrun := false }) s = .next t ∧
      t.setup = s.setup ∧ t.pending = s.pending ∧ P t.live

/-- A live record of the kind and subject stands in the fault list (R156). -/
def LiveFault (k : FaultKind) (subject : Subject) (L : Live) : Prop :=
  ∃ f ∈ L.faults, f.kind = k ∧ f.subject = subject ∧ (f.state = .opened ∨ f.state = .acked)

/-- The fault list has room for n more records in its 95 ordinary places (R158), and nothing waits for the journal. -/
def FaultRoom (n : Nat) (L : Live) : Prop := L.faults.length + n ≤ 95 ∧ firstWriter L = none

/-- The code is pending at the position as a message, or on its way there with a poll (R13, R44). -/
def Shows (p : Pos) (c : DisplayCode) (L : Live) : Prop :=
  (L.dock p).code = some (c, .message) ∨
    ∃ replaced acks, (L.arm (armOf p)).txn = some (.poll (numOf p) (some (c, .message)) replaced acks)

/-- The code is pending at the position as its resting code, or on its way there with a poll (R13, R45). -/
def Rests (p : Pos) (c : DisplayCode) (L : Live) : Prop :=
  (L.dock p).code = some (c, .resting) ∨
    ∃ replaced acks, (L.arm (armOf p)).txn = some (.poll (numOf p) (some (c, .resting)) replaced acks)

/-- The command waits in its arm's queue or has just been sent (R11, R12). -/
def OnItsWay (e : QueueEntry) (L : Live) : Prop :=
  e ∈ (L.arm (armOf e.pos)).queue ∨ ∃ sent : SentCommand, (L.arm (armOf e.pos)).txn = some (.command sent) ∧ sent.entry = e

/-- A bike has a fault mark: its tag carries one, or a live BIKE REPORTED record stands for it (R31). -/
def HasMark (t : Tag) (L : Live) : Prop := t.mark ≠ none ∨ LiveFault .bikeReported (.bike t.bike) L

/-- The seven fill counts, each by the docks it counts (R128); hireable bikes as R46 has them. -/
def FillCounted (L : Live) (c : FillCounts) : Prop :=
  ∃ usable hireable free drop pickup faulty : Pos → Bool,
    (∀ p, usable p = true ↔
      (L.dock p).kind = some .dock ∧ (L.dock p).link = .ready ∧ (L.arm (armOf p)).state = .running ∧
        ∀ f ∈ L.faults, f.subject = .position p → f.barring = false) ∧
    (∀ p, hireable p = true ↔
      usable p = true ∧ (L.dock p).latch = some .held ∧ (L.dock p).reservation = .none ∧ (L.dock p).slot = none ∧
        ∃ t, (L.dock p).snapshot = some (.read t) ∧ (∀ x, t.stamp ≠ .opened x) ∧ ¬ HasMark t L) ∧
    (∀ p, free p = true ↔
      usable p = true ∧ (L.dock p).latch = some .empty ∧ (L.dock p).reservation = .none) ∧
    (∀ p, drop p = true ↔
      usable p = true ∧ (L.dock p).latch = some .empty ∧ (L.dock p).reservation = .vanDrop) ∧
    (∀ p, pickup p = true ↔
      usable p = true ∧ (L.dock p).latch = some .held ∧ (L.dock p).reservation = .vanPickup) ∧
    (∀ p, faulty p = true ↔
      (L.dock p).kind = some .dock ∧ (L.dock p).link = .ready ∧ (L.dock p).latch = some .held ∧
        ∃ t, (L.dock p).snapshot = some (.read t) ∧ HasMark t L) ∧
    c =
      { usable := allPos.countP usable, hireable := allPos.countP hireable, free := allPos.countP free
        reservedDocks := allPos.countP drop, reservedBikes := allPos.countP pickup
        other := allPos.countP fun p => usable p && !hireable p && !free p && !drop p
        faulty := allPos.countP faulty }

/-- The kiosk is excess: four kiosks with a known node stand at lower positions (R3, R23). -/
def Excess (p : Pos) (L : Live) : Prop :=
  (L.dock p).kind = some .kiosk ∧ (L.dock p).serial ≠ none ∧
    4 ≤ allPos.countP fun q => decide (q < p ∧ (L.dock q).kind = some .kiosk ∧ (L.dock q).serial ≠ none)

/-- The resting code due at a READY or SILENT position: the first row of R45 that holds. -/
def RestingDue (p : Pos) (c : DisplayCode) (L : Live) : Prop :=
  let closed := L.power.state = .holdover ∨ L.clock.valid = false
  let service := (L.arm (armOf p)).state = .service
  let bar := (L.dock p).kind = some .dock ∧ barred L p = true
  let shut := (L.dock p).kind = some .kiosk ∧ (L.power.state = .quiet ∨ Excess p L)
  (closed → c = .stationClosed) ∧ (¬ closed → service ∨ bar → c = .dockOutOfService) ∧
    (¬ closed → ¬ service → ¬ bar → shut → c = .stationClosed) ∧
    (¬ closed → ¬ service → ¬ bar → ¬ shut → c = .ready)

/-- The lamp due at a position: the first row of R32 that holds. -/
def LampDue (p : Pos) (l : Lamp) (L : Live) : Prop :=
  let service := (L.arm (armOf p)).state = .service
  let shut := (L.dock p).kind = some .kiosk ∧ (L.power.state = .quiet ∨ L.power.state = .holdover)
  let dim := (L.dock p).kind ≠ some .kiosk ∧ L.power.state = .holdover
  (service ∨ shut → l = .off) ∧ (¬ service → dim → l = .dim) ∧ (¬ service → ¬ shut → ¬ dim → l = .on)

/-- The part in which a SILENT position has become READY by an answer (R15), the fill counts following (R26). -/
def MadeReady (p : Pos) (L M : Live) : Prop :=
  (∃ (docks : Vector DockRec 64) (fill : FillCounts) (state : FillState) (v : Vector EventFlag 9),
    M = { L with docks := docks, fill := fill, fillState := state, attention := v }) ∧
  (∀ q : Pos, M.dock q = if q = p then { L.dock q with link := .ready } else L.dock q) ∧ M.fill = countFill M

/-- A release at the position whose UNLATCH was still queued has ended: the UNLATCH is withdrawn, the latch HELD again, and
a remote release's entry ended with the refusal (R11, R77, R82). -/
def ReleaseWithdrawn (p : Pos) (r : Release) (c : DisplayCode) (L M : Live) : Prop :=
  (∀ x ∈ M.releases, x.pos ≠ p) ∧ (M.dock p).latch = some .held ∧ unlatchQueued M p = false ∧
    (r.remote = true → ∀ e ∈ L.remotes, e.pos = p → e.ended = none →
      { e with ended := some (.refused c, L.clock.minute) } ∈ M.remotes)

/-- The end of a release has been written to the remote table where the release is REMOTE: its PENDING entry is ENDED with
the result and the minute, and REMOTE DONE has been raised; otherwise the table stays (R82). -/
def RemoteEnded (r : Release) (result : RemoteResult) (L M : Live) : Prop :=
  (r.remote = true →
    (M.remotes = L.remotes.map fun e =>
      if e.pos = r.pos ∧ e.ended = none then { e with ended := some (result, L.clock.minute) } else e) ∧
    M.attention[EventKind.remoteDone.idx] =
      { pending := true, count := (L.attention[EventKind.remoteDone.idx]).count + 1 }) ∧
  (r.remote = false → M.remotes = L.remotes)

/-- The card has been given back: its out count falls by 1, not below 0, and no other record changes (R68). -/
def GivenBack (id : CardId) (L M : Live) : Prop :=
  M.cards = L.cards.map fun x => if x.card = id then { x with outCount := x.outCount - 1 } else x

/-- A crew action at the position whose UNLATCH was still queued has ended, the latch HELD again (R11, R143). -/
def CrewWithdrawn (p : Pos) (M : Live) : Prop :=
  (∀ x ∈ M.crew, x.pos ≠ p) ∧ (M.dock p).latch = some .held ∧ unlatchQueued M p = false

/-- The HIRE ENDs that wait for the journal, in position order (group 1 of R120). -/
def waitingEnds (L : Live) : List (Stamped × Subject × JournalBody) :=
  allPos.flatMap fun p => ((L.dock p).slot.filter fun x => x.window = .deferredJournal).toList.map fun x =>
    (x.asked.getD (now L), .bike x.bike, .hireEnd x p)

/-- The BIKE MOVEs that wait, in position order and within a position the oldest first (group 2 of R120). -/
def waitingMoves (L : Live) : List (Stamped × Subject × JournalBody) :=
  allPos.flatMap fun p => (L.dock p).moves.map fun m => (m.at_, .position p, .bikeMove m.reason m.bike m.merged)

/-- The fault records that wait, in list order, of one record FAULT OPENED first (group 3 of R120, R170). -/
def waitingFaults (L : Live) : List (Stamped × Subject × JournalBody) :=
  L.faults.flatMap fun f =>
    (if f.pending = .opened ∨ f.pending = .both then
      [(f.opening, f.subject, .faultOpened f.number f.kind f.barringAtOpening f.detail)]
    else []) ++
    if f.pending = .cleared ∨ f.pending = .both then
      f.clearing.toList.map fun c =>
        (c.2.1, f.subject, .faultCleared f.number f.kind f.repeats f.opening.minute f.lastSeen c.2.2 c.1)
    else []

/-- The summary of a van visit that waits (group 4 of R120). -/
def waitingSummary (L : Live) : List (Stamped × Subject × JournalBody) :=
  (L.visit.data.filter fun v => v.summaryPending).toList.flatMap fun v => v.close.toList.map fun c =>
    (c.2, .station, .vanVisit v.van (v.pickupsPlanned, v.dropsPlanned, v.collectionsPlanned)
      (v.pickupsDone, v.dropsDone, v.collectionsDone) c.1)

/-- The pass closures that wait, in card order (group 5 of R120). -/
def waitingPasses (L : Live) : List (Stamped × Subject × JournalBody) :=
  L.cards.flatMap fun r => r.closure.toList.map fun k =>
    (k.asked, .card r.card, .passClosed r.holdIssued r.holdRemaining k.reason r.source)

/-- Records with the sequence numbers from n on (R113). -/
def numberedFrom (n : Nat) (rs : List (Stamped × Subject × JournalBody)) : List JournalRec :=
  rs.mapIdx fun i r => { seq := n + i, at_ := r.1, subject := r.2.1, body := r.2.2 }

/-- Every record of the part that waits for the journal is one its owner can write, told apart from every other: a fault waiting
to write FAULT CLEARED and a waiting summary know their clearing and close, fault numbers and card IDs are not repeated. -/
def WritersTold (L : Live) : Prop :=
  (∀ f ∈ L.faults, f.pending = .cleared ∨ f.pending = .both → f.clearing ≠ none) ∧
    (∀ v, L.visit.data = some v → v.summaryPending = true → v.close ≠ none) ∧
    (L.faults.map (·.number)).Nodup ∧ (L.cards.map (·.card)).Nodup

/-- The pass check of this minute takes the record: an expired PASS with nothing out, no closure pending and no slot that waits
to be settled against it (R66). -/
def PassDue (L : Live) (minute : Minute) (r : CardRec) : Prop :=
  r.role = .pass ∧ (∃ e, r.expiry = some e ∧ e ≤ minute) ∧ r.outCount = 0 ∧ r.closure = none ∧
    ∀ (p : Pos) (x : Slot), (L.dock p).slot = some x → ¬(x.stamp.card = r.card ∧ x.stamp.pass = true)

/-- The pass check of this minute has been made: every record it takes has left the list, or waits for the journal with its
closure, EXPIRED, pending; no other record has left or is being closed, where no card ID stands twice (R66, R67). -/
def PassesChecked (L M : Live) (minute : Minute) : Prop :=
  ∀ (id : CardId) (r : CardRec), findCard L.cards id = some r →
    (PassDue L minute r →
      findCard M.cards id = none ∨ ∃ u k, findCard M.cards id = some u ∧ u.closure = some k ∧ k.reason = .expired) ∧
    (¬ PassDue L minute r → (L.cards.map (·.card)).Nodup →
      ∃ u, findCard M.cards id = some u ∧ u.role = r.role ∧ u.closure = r.closure)

/-- One second of the timers whose seconds the part reports has passed: those of the queries, those of the settlement windows
out of OFF, that of an open visit in RUN and QUIET, and none else (R56, R86, R150; log 5). -/
def TimersCounted (L M : Live) : Prop :=
  let counts := (L.visit.state = .opened ∨ L.visit.state = .working) ∧ (L.power.state = .run ∨ L.power.state = .quiet)
  M.queries = L.queries.map (fun q => { q with secondsLeft := q.secondsLeft - 1 }) ∧
    (L.power.state = .off → ∀ p : Pos, (M.dock p).slot = (L.dock p).slot) ∧
    (L.power.state ≠ .off → ∀ p : Pos, (M.dock p).slot = (L.dock p).slot.map fun x =>
      if x.window = .running ∨ x.window = .reported then { x with secondsLeft := x.secondsLeft - 1 } else x) ∧
    (counts → M.visit =
      { L.visit with data := L.visit.data.map fun v => { v with secondsLeft := v.secondsLeft - 1 } }) ∧
    (¬ counts → M.visit = L.visit)

/-- The visit that was OPEN or WORKING is CLOSED for the reason, its window over, VAN DONE raised once; no position keeps a
reservation, and every crew pickup whose UNLATCH was still queued has ended (R143, R150–R152). Whether its summary waits for
the journal is left open here. -/
def VisitClosed (reason : CloseReason) (L M : Live) : Prop :=
  M.visit.state = .closed ∧
    (∀ v, L.visit.data = some v → ∃ waits, M.visit.data =
      some { v with close := some (reason, now L), secondsLeft := 0, summaryPending := waits }) ∧
    M.attention[EventKind.vanDone.idx] =
      { pending := true, count := (L.attention[EventKind.vanDone.idx]).count + 1 } ∧
    (∀ p : Pos, (M.dock p).reservation = .none) ∧
    ∀ c ∈ L.crew, c.purpose = .pickup → findRelease L c.pos = none → unlatchQueued L c.pos = true →
      ∀ x ∈ M.crew, x.pos ≠ c.pos

/-- An arm stop waits for the end of the arm's last transaction, its line work abandoned (R21; DEDUCED, log 14). -/
def StopWaits (a : Arm) (s : State) : Prop :=
  Working s ∧ (s.live.arm a).state = .stopping ∧ (s.live.arm a).stopWaits = true ∧ (s.live.arm a).work = .none

/-- The changes of a root opening have been made on a STOPPING arm, which awaits its sense reading now: the root switch open,
no line work, transaction, command or query of the arm left, every switch record OPEN, no recovery timer running, every
position DARK where a node is known and ABSENT where none is, and no latch OPEN or UNLATCHING (R19, R21, R42, R60). -/
def RootOpened (a : Arm) (known : Pos → Prop) (M : Live) : Prop :=
  let r := M.arm a
  r.state = .stopping ∧ r.stopWaits = false ∧ r.rootClosed = false ∧ r.txn = none ∧ r.queue = [] ∧ r.resend = none ∧
    r.repower = [] ∧ r.discovery = none ∧ r.work = .none ∧ (∀ q ∈ M.queries, armOf q.pos ≠ a) ∧
    ∀ p : Pos, armOf p = a →
      (known p → (M.dock p).link = .dark) ∧ (¬ known p → (M.dock p).link = .absent) ∧
        (M.dock p).latch ≠ some .opened ∧ (M.dock p).latch ≠ some .unlatching ∧
        (M.link p).switch = .opened ∧ (M.link p).recovery = .idle

/-- What an arm leaving RUNNING takes back: the query entries of its docks, without answer (R60), and its docks'
reservations (R148). -/
def GivenUp (a : Arm) (L M : Live) : Prop :=
  M.queries = L.queries.filter (fun q => armOf q.pos ≠ a) ∧ ∀ p : Pos, armOf p = a → (M.dock p).reservation = .none

/-- A step of an arm sequence is passed over: a STOP of an arm that is not on, a START of one that is on or FAILED (R185). -/
def passedOver (L : Live) : StepAction × Arm → Bool
  | (.stop, a) => !(L.arm a).state.active
  | (.start, a) => decide ((L.arm a).state ≠ .off ∧ (L.arm a).state ≠ .stopping)

/-- The arms of M are in the states of L, and their shed marks the ones given, but for the arms excepted. -/
def ArmsKeep (but : Arm → Prop) (marks : Vector Bool 4) (L M : Live) : Prop :=
  ∀ b : Arm, ¬ but b → (M.arm b).state = (L.arm b).state ∧ M.power.shedMark[b] = marks[b]

/-- A sequence with these steps has been built in place of any in flight, the arms' shed marks being these, and its first step
that is not passed over taken at once: a STOP has made its arm STOPPING with a shed mark, a START an OFF arm STARTING with its
mark cleared, and a START of a STOPPING arm waits; no other arm changes its state or mark (R184, R185). The sequence keeps the
service membership of the arm records, and the discovery of the arm just started is the only one that a step of it has begun
(R1; DEDUCED, log 63). -/
def SequenceBegun (g : Setup) (steps : List (StepAction × Arm)) (marks : Vector Bool 4) (L M : Live) : Prop :=
  let inFlight := fun (rest : List (StepAction × Arm)) (waits : Bool) =>
    M.power.sequence = rest ∧ M.power.waiting = waits
  let begins := fun started : Arm → Prop => ∀ b : Arm, M.power.begun[b] = true ↔ started b
  (∀ a : Arm, M.power.members[a] = (g.arms[a]).service) ∧
    match steps.dropWhile (passedOver L) with
    | [] => inFlight [] false ∧ begins (fun _ => False) ∧ ArmsKeep (fun _ => False) marks L M
    | (.stop, a) :: rest =>
      inFlight rest false ∧ begins (fun _ => False) ∧ (M.arm a).state = .stopping ∧ M.power.shedMark[a] = true ∧
        ArmsKeep (· = a) marks L M
    | (.start, a) :: rest =>
      ((L.arm a).state = .off →
        inFlight rest false ∧ begins (· = a) ∧ (M.arm a).state = .starting ∧ M.power.shedMark[a] = false ∧
          ArmsKeep (· = a) marks L M) ∧
        ((L.arm a).state = .stopping →
          inFlight ((.start, a) :: rest) true ∧ begins (fun _ => False) ∧ ArmsKeep (fun _ => False) marks L M)

/-- A recomputed shed set has been followed by its sequence: STOP steps for the arms in it that are on, in reverse start
order, then START steps for the marked arms outside it, in start order (R184). -/
def Resequenced (g : Setup) (L M : Live) : Prop :=
  let stops := g.startOrder.reverse.filter fun a => M.power.shedSet[a] && (L.arm a).state.active
  let starts := g.startOrder.filter fun a => !M.power.shedSet[a] && L.power.shedMark[a]
  SequenceBegun g (stops.map (fun a => (.stop, a)) ++ starts.map fun a => (.start, a)) L.power.shedMark L M

/-- ARM CHANGE has been raised once (R2). -/
def ArmChangeRaised (L M : Live) : Prop :=
  M.attention[EventKind.armChange.idx] =
    { pending := true, count := (L.attention[EventKind.armChange.idx]).count + 1 }

/-- The arm is held in service: by the SERVICE line with the membership of its record, or by its request (R186). -/
def HeldNow (g : Setup) (a : Arm) (L : Live) : Prop :=
  (L.power.service = true ∧ (g.arms[a]).service = true) ∨ L.power.request[a] = true

/-- The arm is held in service at the end of its full discovery: by the SERVICE line with its membership, which is the arm
record's, but for a discovery that a START step of the arm sequence still in flight began the one that the sequence was built
with (R1; DEDUCED, log 63), or by its request (R186). -/
def HeldAtEnd (g : Setup) (a : Arm) (L : Live) : Prop :=
  let sequenced := L.power.sequence ≠ [] ∧ L.power.begun[a] = true
  (L.power.service = true ∧
      (¬ sequenced → (g.arms[a]).service = true) ∧
      (sequenced → L.power.members[a] = true)) ∨
    L.power.request[a] = true

/-- The discovery of an arm has ended with no root opening: a STARTING arm, and after an extension a RUNNING or SERVICE one, is
SERVICE where it is held in service at that moment and RUNNING otherwise;
an arm in any other state keeps it; ARM CHANGE has been raised once; where fewer positions than expected answer, ARM SHORTFALL
is live with the arm as subject, given room in the fault list for n more, and otherwise it has not been opened (R2, R8, R185,
R186). -/
def DiscoveryEnded (n : Nat) (g : Setup) (a : Arm) (L M : Live) : Prop :=
  let few := allNums.countP (fun i => (M.dock (posAt a i)).inRotation) < (g.arms[a]).expected
  (M.arm a).discovery = none ∧ (M.arm a).work = .none ∧
    ((L.arm a).state = .starting →
      (HeldAtEnd g a L → (M.arm a).state = .service) ∧ (¬ HeldAtEnd g a L → (M.arm a).state = .running)) ∧
    ((L.arm a).state = .running ∨ (L.arm a).state = .service →
      (HeldNow g a L → (M.arm a).state = .service) ∧ (¬ HeldNow g a L → (M.arm a).state = .running)) ∧
    ((L.arm a).state = .off ∨ (L.arm a).state = .stopping ∨ (L.arm a).state = .failed →
      (M.arm a).state = (L.arm a).state) ∧
    ArmChangeRaised L M ∧
    (few → FaultRoom n L → LiveFault .armShortfall (.arm a) M) ∧
    (¬ few → LiveFault .armShortfall (.arm a) M → LiveFault .armShortfall (.arm a) L)

/-- The localization of an arm has ended with no root opening, and with it the discovery it interrupted; ARM CHANGE has been
raised once (R17). -/
def LocalizationEnded (n : Nat) (g : Setup) (a : Arm) (L M : Live) : Prop :=
  ((L.arm a).discovery ≠ none → DiscoveryEnded n g a L M) ∧
    ((L.arm a).discovery = none →
      (M.arm a).discovery = none ∧ (M.arm a).work = .none ∧ (M.arm a).state = (L.arm a).state ∧ ArmChangeRaised L M)

/-- Every position of the arm beyond its position k is DARK where its node was known and ABSENT where none was (R7, R17,
R18). -/
def BeyondIsDark (a : Arm) (k : Nat) (L M : Live) : Prop :=
  ∀ i, k < i → i ≤ 16 → (M.dock (posAt a i)).link = if (L.dock (posAt a i)).known then .dark else .absent

/-- The kind and tag of a request row's frame (R207); none for a row that is no request. Every request row but REMOTE
RELEASE, whose tag its remote entry keeps, is taken with tag 0 (log 4). -/
def requestOf : Instr → Option (Byte × Byte)
  | .status => some (1, 0)
  | .clearAttention _ => some (2, 0)
  | .setTime _ _ _ => some (3, 0)
  | .readTime => some (4, 0)
  | .stationSetup _ _ => some (5, 0)
  | .startOrder _ => some (6, 0)
  | .quietOn | .quietOff => some (7, 0)
  | .armServiceEnter _ | .armServiceLeave _ => some (8, 0)
  | .restart => some (9, 0)
  | .coldClear => some (10, 0)
  | .armConfigure _ _ _ _ _ => some (11, 0)
  | .armDiscover _ => some (12, 0)
  | .armOff _ => some (13, 0)
  | .showAll _ => some (14, 0)
  | .dockRead _ => some (15, 0)
  | .cardPut _ => some (16, 0)
  | .cardDrop _ => some (17, 0)
  | .cardRead _ => some (18, 0)
  | .cardPage _ => some (19, 0)
  | .cardUnknown _ => some (20, 0)
  | .queryRead => some (21, 0)
  | .dockResolveTaken _ | .dockResolveKept _ | .dockResolveGone _ _ | .dockResolveVacate _ => some (22, 0)
  | .remoteRelease tag _ _ => some (23, tag)
  | .remoteRead => some (24, 0)
  | .hireSettings _ _ _ => some (25, 0)
  | .tariffStage _ _ => some (26, 0)
  | .tariffCommit _ => some (27, 0)
  | .tariffRead _ => some (28, 0)
  | .journalRead _ _ => some (29, 0)
  | .journalRelease _ => some (30, 0)
  | .bandSet _ _ _ => some (31, 0)
  | .fillRead => some (32, 0)
  | .vanOpen _ _ _ => some (33, 0)
  | .vanClose => some (34, 0)
  | .vanRead => some (35, 0)
  | .faultAck _ => some (36, 0)
  | .faultClear _ => some (37, 0)
  | .faultRead _ _ => some (38, 0)
  | .presetSetValue _ _ | .presetSetAssign _ _ => some (39, 0)
  | .counterRead _ => some (40, 0)
  | .counterReset _ => some (41, 0)
  | .hostFrame _ | .frameGap | .replySent | .mainsOkTrue | .mainsOkFalse | .battLowTrue | .battLowFalse
  | .serviceLineAsserted | .serviceLineReleased | .sequenceStep | .resetPin | .powerApplied _ | .clockTick
  | .pollAnswer _ _ | .commandAnswer _ _ | .discoveryIdentifyAnswer _ _ | .recoveryProbeAnswer _ _
  | .passPowerAnswer _ _ | .switchReportAnswer _ _ _ | .openSwitchAnswer _ _ | .answerTimeout _ | .identifyTimeout _
  | .recoveryTimer _ | .slotExpiry _ | .rootSenseReading _ _ | .queryTimeout _ | .settlementWindowExpiry _
  | .vanWindowExpiry | .startupLineRead _ _ _ | .powerRemoved => none

/-- A tariff generation whose plans keep the ranges of R95 and whose revision keeps R96's. -/
def Generation.ok (t : Generation) : Bool := decide (t.revision ≤ 65535) && t.plans.toList.all planOk

/-- The start order names each arm once (R182). -/
def orderOk (arms : List Arm) : Bool := allArms.all (fun a => arms.contains a) && decide (arms.length = 4)

/-- The ranges the settings keep: tariff generations (R95, R96), band (R130), station number and slot length (R190), arm
configuration (R1), start order (R182), hire settings (R93), presets (R174). -/
def Setup.ok (g : Setup) : Bool :=
  g.current.ok && g.previous.ok && g.staging.ok &&
    decide (g.low ≤ g.target ∧ g.target ≤ g.high ∧ g.high ≤ 64) &&
    g.station.all (fun n => decide (1 ≤ n ∧ n ≤ 65535)) && [100, 250, 1000, 4000].contains g.slotMs &&
    g.arms.toList.all (fun c => decide (c.expected ≤ 16)) && orderOk g.startOrder &&
    decide (10 ≤ g.takeWindow ∧ g.takeWindow ≤ 60 ∧ 15 ≤ g.settleWindow ∧ g.settleWindow ≤ 240 ∧
      1 ≤ g.queryTimeout ∧ g.queryTimeout ≤ 10) &&
    g.presets.toList.all (fun v => v.all fun n => decide (1 ≤ n ∧ n ≤ Config.counterCeiling))

/-- The claims fit the free slots: those of the ring and those left in the sequence numbers (R116, R118, R127). -/
def ClaimsFit (L : Live) : Prop :=
  L.journal.claims ≤ min (512 - L.journal.ring.length) (4294967295 - L.journal.lastIssued)

/-- The fill counts are those of the records as they stand, and the fill state the one the band gives their hireable bikes
(R128, R129, R131). -/
def FillAgrees (s : State) : Prop :=
  s.live.fill = countFill s.live ∧
    (s.live.fillState = .deficit ↔ s.live.fill.hireable < s.setup.low) ∧
    (s.live.fillState = .surplus ↔ s.setup.low ≤ s.live.fill.hireable ∧ s.setup.high < s.live.fill.hireable)

/-- Reservations stand only while a visit is OPEN or WORKING (R136, R151). -/
def ReservedForVisit (L : Live) : Prop :=
  (L.visit.state = .opened ∨ L.visit.state = .working) ∨ ∀ p : Pos, (L.dock p).reservation = .none

/-- No two records of the fault list have one number, or one kind and subject; at most 95 are of kinds other than LIST FULL, and
LIST FULL is about the station (R155, R157, R158). -/
def FaultsDistinct (L : Live) : Prop :=
  (L.faults.map (·.number)).Nodup ∧ (L.faults.map fun f => (f.kind, f.subject)).Nodup ∧
    L.faults.countP (fun f => f.kind ≠ .listFull) ≤ 95 ∧ ∀ f ∈ L.faults, f.kind = .listFull → f.subject = .station

/-- The journal's records are numbered without a gap, the newest with the last number issued (R113). -/
def Journal.numbered (j : Journal) : Bool :=
  decide (j.ring.length ≤ j.lastIssued) &&
    decide (j.ring.map (·.seq) = List.range' (j.lastIssued + 1 - j.ring.length) j.ring.length)

end Sys2Proof.Machine
end

