-- ==== Sys2Proof/Certificates/Slice0/Obligations.lean ====
section
/-! DEFINITION. The statements about the SC64 model, one `Obligations.<Name>` each; OBLIGATIONS.json lists them. -/

open Sys2Proof Sys2Proof.Machine

/-! ## The queue of commands and reset -/

/-- A step takes the command at the front of the queue and runs exec on it with the queue's rest; on an empty queue the
block idles (DESIGN CHOICE, log 3). -/
def Obligations.StepRunsTheFrontCommand : Prop :=
  (∀ (c : Instr) (q : List Instr) (s : State), step { s with pending := c :: q } = exec c { s with pending := q }) ∧
    ∀ s : State, s.pending = [] → step s = .next s

/-- State.reset holds the cold values of the table under R194, the working values of a start-up (R2, R93, R182), and an
empty queue. -/
def Obligations.ResetHoldsTheColdValues : Prop :=
  let g := State.reset.setup
  let L := State.reset.live
  L.journal.ring = [] ∧ L.journal.lastIssued = 0 ∧ L.cards = [] ∧
    (∀ t ∈ [g.current, g.previous, g.staging], t.revision = 0 ∧
      ∀ c : PlanClass, t.plan c = { F := 0, B := 1, P := 0, E := 0, C := 0, K := 0, W := 0, M := 0 }) ∧
    g.edited = false ∧ (g.low = 0 ∧ g.target = 0 ∧ g.high = 64) ∧ L.visit.state = .none ∧ g.station = none ∧
    (∀ a : Arm, g.arms[a] = { expected := 0, nightOff := false, holdoverKeep := false, service := false }) ∧
    g.startOrder = [0, 1, 2, 3] ∧ L.faults = [] ∧ L.nextFault = 1 ∧
    (∀ i : Fin 4, g.presets[i] = none) ∧ (∀ p : Pos, g.presetIndex[p] = 0 ∧ L.counter p = 0) ∧ L.closing = [] ∧
    (∀ p : Pos, (L.dock p).slot = none ∧ (L.dock p).moves = []) ∧
    L.clock = { minute := 0, second := 0, valid := false } ∧
    (g.takeWindow = 30 ∧ g.settleWindow = 60 ∧ g.queryTimeout = 3 ∧ g.slotMs = 250) ∧
    (∀ a : Arm, (L.arm a).state = .off) ∧ (∀ p : Pos, (L.dock p).link = .absent) ∧ State.reset.pending = []

/-! ## The host port (chapter 10) -/

/-- A request row is answered BUSY during a start-up and, but for STATUS, POWER OFF in the power state OFF, and changes
nothing else; an unpowered part takes nothing (log 11). -/
def Obligations.RequestsTurnedAway : Prop :=
  ∀ (c : Instr) (kind tag : Byte) (s : State), requestOf c = some (kind, tag) →
    (s.live.powered = false → exec c s = .next s) ∧
    (s.live.powered = true → s.live.boot ≠ none →
      exec c s = .next (setInHand kind tag { result := .busy, reason := none, body := [] } s)) ∧
    (Working s → s.live.power.state = .off → kind ≠ 1 →
      exec c s = .next (setInHand kind tag { result := .powerOff, reason := none, body := [] } s))

/-- The reading requests change nothing but the reply in hand, which their owner makes from the state as it stands: STATUS
(R203), READ TIME (R189), DOCK READ (R47), CARD READ and CARD PAGE (R53, R54), QUERY READ (R61), TARIFF READ (R99), JOURNAL
READ (R122), FILL READ (R132), VAN READ (R154), FAULT READ (R172) and COUNTER READ (R176). -/
def Obligations.ReadersChangeOnlyTheReply : Prop :=
  ∀ s : State,
    (Working s → exec .status s = .next (setInHand 1 0 (statusReply s.setup s.live) s)) ∧
    (Taking s →
      exec .readTime s = .next (setInHand 4 0 (readTime s.setup s.live) s) ∧
      (∀ pos, exec (.dockRead pos) s = .next (setInHand 15 0 (dockRead pos s.setup s.live) s)) ∧
      (∀ card, exec (.cardRead card) s = .next (setInHand 18 0 (cardRead card s.setup s.live) s)) ∧
      (∀ page, exec (.cardPage page) s = .next (setInHand 19 0 (cardPage page s.setup s.live) s)) ∧
      exec .queryRead s = .next (setInHand 21 0 (queryRead s.setup s.live) s) ∧
      (∀ gen, exec (.tariffRead gen) s = .next (setInHand 28 0 (tariffRead gen s.setup s.live) s)) ∧
      (∀ start count,
        exec (.journalRead start count) s = .next (setInHand 29 0 (journalRead start count s.setup s.live) s)) ∧
      exec .fillRead s = .next (setInHand 32 0 (fillRead s.setup s.live) s) ∧
      exec .vanRead s = .next (setInHand 35 0 (vanRead s.setup s.live) s) ∧
      (∀ place count,
        exec (.faultRead place count) s = .next (setInHand 38 0 (faultRead place count s.setup s.live) s)) ∧
      (∀ arm, exec (.counterRead arm) s = .next (setInHand 40 0 (counterRead arm s.setup s.live) s)))

/-- TARIFF READ: the revision and the eight plan records in plan class order, each with all eight fields, of the
generation named; STAGING with its edited flag; any other value RANGE; nothing changed (R99). DESIGN CHOICES: that 0, 1
and 2 name CURRENT, PREVIOUS and STAGING is log 33, that the eight records have no count byte log 34. -/
def Obligations.TariffReadReturnsOneGeneration : Prop :=
  ∀ s : State, Taking s →
    let plan := fun p : PlanFields =>
      [b1 p.F, b1 p.B, b4 p.P, b4 p.E, b4 p.C, b4 p.K, b1 p.W, b4 p.M]
    let body := fun t : Generation => b2 t.revision :: (List.finRange 8).flatMap fun c => plan (t.plan c)
    exec (.tariffRead 0) s = .next (setInHand 28 0 (done (body s.setup.current)) s) ∧
    exec (.tariffRead 1) s = .next (setInHand 28 0 (done (body s.setup.previous)) s) ∧
    exec (.tariffRead 2) s = .next (setInHand 28 0 (done (body s.setup.staging ++ [flag s.setup.edited])) s) ∧
    ∀ n, 3 ≤ n → exec (.tariffRead n) s = .next (setInHand 28 0 (plain .range) s)

/-- FILL READ: the band, the fill state and the seven fill counts as they stand, and the VAN PICKUP and VAN DROP
reservations held at all positions; nothing changed (R132, R207). DESIGN CHOICES, log 34: the seven counts have no count byte,
and the fill state is the byte `fillNum` gives it. Which docks each count counts is stated with BAND SET. -/
def Obligations.FillReadReturnsTheFillFigures : Prop :=
  ∀ s : State, Taking s →
    let L := s.live
    exec .fillRead s =
      .next (setInHand 32 0
        (done
          [b1 s.setup.low, b1 s.setup.target, b1 s.setup.high, b1 (fillNum L.fillState), b1 L.fill.usable,
           b1 L.fill.hireable, b1 L.fill.free, b1 L.fill.reservedDocks, b1 L.fill.reservedBikes, b1 L.fill.other,
           b1 L.fill.faulty,
           b1 ((List.finRange 64).countP fun p => (L.dock p).reservation = .vanPickup),
           b1 ((List.finRange 64).countP fun p => (L.dock p).reservation = .vanDrop)])
        s)

/-- QUERY READ: every entry of the query table in the order in which they were made, each with card ID, position, tap
minute and second and the seconds left; no entry removed, nothing changed (R61).
DESIGN CHOICE, log 34: the reply begins with a count byte, 0 for an empty table, and the seconds left are one byte. -/
def Obligations.QueryReadReturnsEveryEntry : Prop :=
  ∀ s : State, Taking s →
    exec .queryRead s =
      .next (setInHand 21 0
        (done (b1 s.live.queries.length ::
          s.live.queries.flatMap fun q =>
            [b8 q.card.toNat, b1 q.pos.val, b4 q.minute, b1 q.second, b1 q.secondsLeft]))
        s)

/-- The reading requests that name something outside its range are answered RANGE: DOCK READ a position above D16, CARD
PAGE a page of 128 or more, COUNTER READ an arm letter beyond D, JOURNAL READ and FAULT READ a count of 0 or above 8,
FAULT READ a place above 95; CARD READ of a card neither stored nor asked about is answered NOT FOUND (R47, R53, R54, R122,
R172, R176). DESIGN CHOICE, log 34: that reply's body is the one byte 0, which both says that no query entry stands for the
card and is the presence byte of the entry's position and seconds left. -/
def Obligations.ReadersOutsideTheirRanges : Prop :=
  ∀ s : State, Taking s →
    (∀ pos, 64 ≤ pos → exec (.dockRead pos) s = .next (setInHand 15 0 (plain .range) s)) ∧
    (∀ page, 128 ≤ page → exec (.cardPage page) s = .next (setInHand 19 0 (plain .range) s)) ∧
    (∀ arm, 4 ≤ arm → exec (.counterRead arm) s = .next (setInHand 40 0 (plain .range) s)) ∧
    (∀ start count, count = 0 ∨ 8 < count →
      exec (.journalRead start count) s = .next (setInHand 29 0 (plain .range) s)) ∧
    (∀ place count, count = 0 ∨ 8 < count ∨ 95 < place →
      exec (.faultRead place count) s = .next (setInHand 38 0 (plain .range) s)) ∧
    (∀ card, findCard s.live.cards card = none → findQuery s.live card = none →
      exec (.cardRead card) s =
        .next (setInHand 18 0 { result := .notFound, reason := none, body := [b1 0] } s))

/-- A JOURNAL READ reply fits the 240 bytes of a frame body, and the records it carries are the first of those held from
the sequence number asked, at most as many as asked, in order and without a gap; a record held from there is left out
only because as many as asked are placed or because the body with it would pass 240 bytes, and where one is held at least
one is returned (R122, R209). -/
def Obligations.JournalReadFitsAFrame : Prop :=
  ∀ (start count : Nat) (g : Setup) (L : Live), 1 ≤ count → count ≤ 8 →
    let rs := recordsFrom start count L
    let fromStart := L.journal.ring.filter fun r => start ≤ r.seq
    let reply := fun (more : Bool) (placed : List JournalRec) =>
      done (journalFigures L ++ [flag more] ++ listOf placed recordFlds)
    journalRead start count g L = reply (decide (rs.length < fromStart.length)) rs ∧
      rs <+: fromStart ∧ rs.length ≤ count ∧ (replyBody (journalRead start count g L)).length ≤ 240 ∧
      (∀ next, fromStart[rs.length]? = some next → rs.length < count →
        240 < (replyBody (reply true (rs ++ [next]))).length) ∧
      (fromStart ≠ [] → rs ≠ [])

/-- CLEAR ATTENTION with a list of 1 to 12 kinds, each known and named once, removes each event kind whose raise count is
the one given, keeps every raise count, and replies with the set as it is then; another list is refused RANGE and nothing
changes (R204; that the kinds of both tables are numbered 0 to 11, the condition kinds last, so that a number below 12 is a
known kind, is a DESIGN CHOICE, log 33). The condition kinds of the set hold from the end of a start-up on: JOURNAL LOW with
fewer than 64 free slots, CARD QUERY with an entry in the query table, CLOCK NEEDED with an invalid clock. ATTN is driven
low while the part has its supply, no start-up is in progress and the set holds a kind, as it does after every raising
(R200–R202; log 42: both are read from the state). -/
def Obligations.ClearAttentionRemovesMatchingKinds : Prop :=
  (∀ (items : List ClearItem) (s : State), Taking s →
    (clearListOk items = true →
      ∃ v : Vector EventFlag 9,
        exec (.clearAttention items) s =
          .next (setInHand 2 0 (done (attentionFlds { s.live with attention := v }))
            { s with live := { s.live with attention := v } }) ∧
        ∀ k : EventKind, v[k.idx].count = s.live.attention[k.idx].count ∧
          v[k.idx].pending =
            (s.live.attention[k.idx].pending &&
              !items.any fun i => i.kind = k.idx.val && i.count = s.live.attention[k.idx].count.toNat)) ∧
    (clearListOk items = false → exec (.clearAttention items) s = .next (setInHand 2 0 (plain .range) s))) ∧
  ∀ L : Live,
    let free := min (512 - L.journal.ring.length) (4294967295 - L.journal.lastIssued)
    (L.boot ≠ none → conditions L = [false, false, false]) ∧
    (L.boot = none → conditions L = [decide (free < 64), decide (L.queries ≠ []), decide (L.clock.valid = false)]) ∧
    (attnLow L = true ↔ L.powered = true ∧ L.boot = none ∧
      ((∃ k : EventKind, L.attention[k.idx].pending = true) ∨ true ∈ conditions L)) ∧
    (L.powered = true → L.boot = none → ∀ k : EventKind, attnLow (raise k L) = true)

/-- RESTART and COLD CLEAR reply DONE, and the start-up they ask for begins when the reply has been sent (R192). A reply
that starts nothing leaves the port free when it has been sent, or sending the one BUSY reply it kept (R197); with no
request in hand there is nothing to send. -/
def Obligations.RepliesEndAndStartUpsFollow : Prop :=
  ∀ s : State,
    (Taking s →
      let after := fun k : StartKind =>
        { s with live := { s.live with port := { s.live.port with startAfter := some k } } }
      exec .restart s = .next (setInHand 9 0 (done []) (after .restart)) ∧
      exec .coldClear s = .next (setInHand 10 0 (done []) (after .cold))) ∧
    (s.live.powered = true →
      (∀ (h : InHand) (k : StartKind), s.live.port.inHand = some h → s.live.port.startAfter = some k →
        exec .replySent s = .next (beginStartup k s)) ∧
      (∀ h : InHand, s.live.port.inHand = some h → s.live.port.startAfter = none →
        exec .replySent s =
          .next { s with live := { s.live with port :=
            { s.live.port with
              inHand := s.live.port.busy.map fun b =>
                { kind := b.1, tag := b.2, reply := { result := .busy, reason := none, body := [] } }
              busy := none } } }) ∧
      (s.live.port.inHand = none → exec .replySent s = .next s))

/-- A whole request frame with a body of at most 240 bytes, after any bytes that are no sync byte, is taken by a hunting
receiver: handed to its owner where no request is in hand, kept for a BUSY reply where one is, discarded where a BUSY
reply is already kept (R195–R198, R207). -/
def Obligations.AWholeFrameIsTaken : Prop :=
  ∀ (noise : List Byte) (kind tag : Byte) (body : List Byte) (s : State),
    (∀ b ∈ noise, b ≠ Config.sync) → body.length ≤ 240 → s.live.powered = true → s.live.port.rx = [] →
    let run := exec (.hostFrame (noise ++ frame kind tag body)) s
    (s.live.port.inHand = none → run = .next (setRx [] (dispatch kind tag body s))) ∧
    (s.live.port.inHand ≠ none → s.live.port.busy = none →
      run = .next { s with live := { s.live with port := { s.live.port with busy := some (kind, tag) } } }) ∧
    (s.live.port.inHand ≠ none → s.live.port.busy ≠ none → run = .next s)

/-- Bytes that complete no frame are only collected: without a sync byte they are discarded, and a frame cut short is
kept until the rest of it arrives, with nothing else changed; a gap of more than 2 ms discards what was collected and
changes nothing else. What was collected counts with the bytes that follow it. A frame whose length byte is above 240, or whose
CRC does not match, is discarded with no trace, and the receiver hunts again in the bytes it has received from the byte after
the frame's sync byte on (R195, R196). -/
def Obligations.AFrameCutShortIsOnlyCollected : Prop :=
  (∀ s : State, s.live.powered = true →
    let hunting := { s with live := { s.live with port := { s.live.port with rx := [] } } }
    exec .frameGap s = .next hunting ∧
      ∀ bytes : List Byte, exec (.hostFrame bytes) s = exec (.hostFrame (s.live.port.rx ++ bytes)) hunting) ∧
  (∀ (noise : List Byte) (len : Byte) (body : List Byte) (sum more : List Byte) (kind tag : Byte) (s : State),
    (∀ b ∈ noise, b ≠ Config.sync) → s.live.powered = true → s.live.port.rx = [] →
    let covered := len :: kind :: tag :: body
    (240 < len.toNat →
      exec (.hostFrame (noise ++ Config.sync :: len :: more)) s = exec (.hostFrame (len :: more)) s) ∧
    (body.length = len.toNat → len.toNat ≤ 240 → sum.length = 2 → sum ≠ crcBytes covered →
      exec (.hostFrame (noise ++ Config.sync :: (covered ++ sum ++ more))) s =
        exec (.hostFrame (covered ++ sum ++ more)) s)) ∧
  ∀ (kind tag : Byte) (body first rest noise : List Byte) (s : State),
    body.length ≤ 240 → frame kind tag body = first ++ rest → rest ≠ [] → (∀ b ∈ noise, b ≠ Config.sync) →
    s.live.powered = true → s.live.port.rx = [] →
    exec (.hostFrame noise) s = .next s ∧
    exec (.hostFrame first) s =
      .next { s with live := { s.live with port := { s.live.port with rx := first } } }

/-- The body of a request as R207 lays it out names the command of its row: a request that arrives as a frame does what
its row does (log 4). The values of QUIET and ARM SERVICE, the outcome bytes of DOCK RESOLVE and its bike ID without a
presence byte, the two lengths of PRESET SET, and the layout of the lists and optional fields of CLEAR ATTENTION and CARD PUT
are the model's readings of it (DESIGN CHOICE, log 33). -/
def Obligations.FrameBodiesNameTheirRows : Prop :=
  ∀ s : State, s.live.powered = true →
    let le := leBytes
    let same := fun (kind : Byte) (body : List Byte) (c : Instr) => exec c s = .next (dispatch kind 0 body s)
    same 1 [] .status ∧ same 4 [] .readTime ∧ same 7 [1] .quietOn ∧ same 7 [0] .quietOff ∧ same 9 [] .restart ∧
    same 10 [] .coldClear ∧ same 21 [] .queryRead ∧ same 24 [] .remoteRead ∧ same 32 [] .fillRead ∧
    same 34 [] .vanClose ∧ same 35 [] .vanRead ∧
    (∀ minute second force, fits4 minute → fits1 second →
      same 3 (le 4 minute ++ le 1 second ++ le 1 force.toNat) (.setTime minute second force)) ∧
    (∀ n ms, fits2 n → fits2 ms → same 5 (le 2 n ++ le 2 ms) (.stationSetup n ms)) ∧
    (∀ arms : List Nat, arms.length < 256 → (∀ a ∈ arms, fits1 a) →
      same 6 (le 1 arms.length ++ arms.flatMap (le 1)) (.startOrder arms)) ∧
    (∀ a, fits1 a →
      same 8 (le 1 a ++ [0]) (.armServiceEnter a) ∧ same 8 (le 1 a ++ [1]) (.armServiceLeave a) ∧
      same 12 (le 1 a) (.armDiscover a) ∧ same 13 (le 1 a) (.armOff a) ∧ same 14 (le 1 a) (.showAll a) ∧
      same 15 (le 1 a) (.dockRead a) ∧ same 19 (le 1 a) (.cardPage a) ∧ same 28 (le 1 a) (.tariffRead a) ∧
      same 40 (le 1 a) (.counterRead a) ∧ same 41 (le 1 a) (.counterReset a) ∧
      same 22 (le 1 a ++ [0]) (.dockResolveTaken a) ∧ same 22 (le 1 a ++ [1]) (.dockResolveKept a) ∧
      same 22 (le 1 a ++ [3]) (.dockResolveVacate a)) ∧
    (∀ a n (night keep service : Bool), fits1 a → fits1 n →
      same 11 (le 1 a ++ le 1 n ++ le 1 night.toNat ++ le 1 keep.toNat ++ le 1 service.toNat)
        (.armConfigure a n night keep service)) ∧
    (∀ p (b : BikeId), fits1 p → same 22 (le 1 p ++ [2] ++ le 4 b.toNat) (.dockResolveGone p b)) ∧
    (∀ c : CardId,
      same 17 (le 8 c.toNat) (.cardDrop c) ∧ same 18 (le 8 c.toNat) (.cardRead c) ∧
      same 20 (le 8 c.toNat) (.cardUnknown c) ∧
      ∀ p, fits1 p → same 23 (le 1 p ++ le 8 c.toNat) (.remoteRelease 0 p c)) ∧
    (∀ x y z, fits1 x → fits1 y → fits1 z →
      same 25 (le 1 x ++ le 1 y ++ le 1 z) (.hireSettings x y z) ∧
      same 31 (le 1 x ++ le 1 y ++ le 1 z) (.bandSet x y z)) ∧
    (∀ c (f : PlanFields), fits1 c → f.wf →
      same 26
        (le 1 c ++ le 1 f.F ++ le 1 f.B ++ le 4 f.P ++ le 4 f.E ++ le 4 f.C ++ le 4 f.K ++ le 1 f.W ++ le 4 f.M)
        (.tariffStage c f)) ∧
    (∀ n, fits2 n → same 27 (le 2 n) (.tariffCommit n) ∧ same 36 (le 2 n) (.faultAck n) ∧
      same 37 (le 2 n) (.faultClear n)) ∧
    (∀ n c, fits4 n → fits1 c →
      same 29 (le 4 n ++ le 1 c) (.journalRead n c) ∧ same 39 (le 1 c ++ le 4 n) (.presetSetValue c n)) ∧
    (∀ n, fits4 n → same 30 (le 4 n) (.journalRelease n)) ∧
    (∀ x y, fits1 x → fits1 y →
      same 38 (le 1 x ++ le 1 y) (.faultRead x y) ∧ same 39 (le 1 x ++ le 1 y) (.presetSetAssign x y)) ∧
    (∀ (v : VanId) (c : CardId) w, fits1 w →
      same 33 (le 4 v.toNat ++ le 8 c.toNat ++ le 1 w) (.vanOpen v c w)) ∧
    (∀ items : List ClearItem, items.length < 256 →
      (∀ i ∈ items, (i.kind < 9 ∧ fits1 i.count) ∨ (9 ≤ i.kind ∧ fits1 i.kind ∧ i.count = 0)) →
      same 2
        (le 1 items.length ++ items.flatMap fun i => if i.kind < 9 then le 1 i.kind ++ le 1 i.count else le 1 i.kind)
        (.clearAttention items)) ∧
    (∀ f : CardPut, f.wf = true →
      let optional := fun (size : Nat) (x : Option Nat) =>
        match x with
        | some n => le 1 1 ++ le size n
        | none => le 1 0
      let role : Nat := match f.role with
        | .member => 0
        | .pass => 1
        | .crew => 2
      let status : Nat := match f.status with
        | .good => 0
        | .blocked => 1
      same 16
        (le 8 f.card.toNat ++ le 1 role ++ le 1 f.plan ++ le 1 f.allowance ++ le 1 status ++ optional 4 f.expiry ++
          optional 1 f.outCount ++ optional 4 f.holdIssued ++ optional 4 f.holdRemaining)
        (.cardPut f))

/-- A tag record within its ranges is stored in 36 bytes, and these bytes, their CRC among them, read back as the same
record with every field (R27, R207, R208). -/
def Obligations.TagBytesReadBack : Prop :=
  ∀ t : Tag, t.wf = true → (encodeTag t).length = 36 ∧ decodeTag (encodeTag t) = .read t

/-! ## Settings (R1, R93, R97, R98, R130, R175, R176, R182, R190) -/

/-- STATION SETUP: a station number of 0 is refused RANGE and neither value is taken; otherwise the number is taken, and
the slot length is rounded down to the nearest of 100, 250, 1,000 and 4,000 ms, at least 100 ms (R190). The row's
operand can also be a number above 65,535, which no field of a frame carries: it is refused RANGE (log 33). HIRE SETTINGS
sets the three hire settings, each clamped into its range, and replies with the values in force (R93). -/
def Obligations.StationAndHireSettingsAreSet : Prop :=
  (∀ (n ms : Nat) (s : State), Taking s →
     ((n = 0 ∨ 65535 < n) → exec (.stationSetup n ms) s = .next (setInHand 5 0 (plain .range) s)) ∧
     (1 ≤ n → n ≤ 65535 →
       ∃ slot, exec (.stationSetup n ms) s =
           .next (setInHand 5 0 (done [b2 n, b2 slot])
             { s with setup := { s.setup with station := some n, slotMs := slot } }) ∧
         slot ∈ [100, 250, 1000, 4000] ∧ (slot ≤ ms ∨ slot = 100) ∧
         ∀ other ∈ [100, 250, 1000, 4000], other ≤ ms → other ≤ slot)) ∧
  ∀ (take settle query : Nat) (s : State), Taking s →
    let into := fun lo hi n : Nat => if n < lo then lo else if hi < n then hi else n
    exec (.hireSettings take settle query) s =
      .next (setInHand 25 0
        (done [b1 (into 10 60 take), b1 (into 15 240 settle), b1 (into 1 10 query)])
        { s with setup :=
          { s.setup with
            takeWindow := into 10 60 take, settleWindow := into 15 240 settle, queryTimeout := into 1 10 query } })

/-- START ORDER: a list that names each of the four arms exactly once replaces the start order; any other list is refused
RANGE and the start order stays (R182). ARM CONFIGURE replaces the whole record of the arm named, or is refused: RANGE for
an arm beyond D or an expected count above 16, LINE OWNED while the SERVICE line is asserted for a change of service
membership; a refusal takes no part of the request (R1). -/
def Obligations.StartOrderAndArmRecordsAreReplaced : Prop :=
  (∀ (arms : List Nat) (s : State), Taking s →
     (arms.Perm [0, 1, 2, 3] →
       ∃ order : List Arm, order.map (·.val) = arms ∧
         exec (.startOrder arms) s =
           .next (setInHand 6 0 (done []) { s with setup := { s.setup with startOrder := order } })) ∧
     (¬ arms.Perm [0, 1, 2, 3] → exec (.startOrder arms) s = .next (setInHand 6 0 (plain .range) s))) ∧
  ∀ (arm n : Nat) (night keep service : Bool) (s : State), Taking s →
    let run := exec (.armConfigure arm n night keep service) s
    (4 ≤ arm ∨ 16 < n → run = .next (setInHand 11 0 (plain .range) s)) ∧
    ∀ a : Arm, a.val = arm → n ≤ 16 →
      (s.live.power.service = true ∧ service ≠ (s.setup.arms[a]).service →
        run = .next (setInHand 11 0 (plain .lineOwned) s)) ∧
      (¬(s.live.power.service = true ∧ service ≠ (s.setup.arms[a]).service) →
        ∃ arms : Vector ArmConfig 4,
          run = .next (setInHand 11 0 (done []) { s with setup := { s.setup with arms := arms } }) ∧
          ∀ b : Arm, arms[b] =
            if b = a then { expected := n, nightOff := night, holdoverKeep := keep, service := service }
            else s.setup.arms[b])

/-- TARIFF STAGE replaces all eight fields of the staging record of its plan class, leaves the revision of staging, sets the
edited flag, also where it writes what was staged, and replies DONE; a plan class above 7 or a field outside its range is
refused RANGE with nothing taken. No fare, stamp or release decision reads what is staged (R95, R97). -/
def Obligations.TariffStageWritesOnePlan : Prop :=
  (∀ (g : Setup) (staging : Generation) (edited : Bool),
    let h := { g with staging := staging, edited := edited }
    (∀ x kind finish fill, fareRequest h x kind finish fill = fareRequest g x kind finish fill) ∧
    (∀ p r L, buildStamp h p r L = buildStamp g p r L) ∧
    (∀ p id L, decideTap h p id L = decideTap g p id L) ∧ ∀ p id L, decideRemote h p id L = decideRemote g p id L) ∧
  ∀ (plan : Nat) (f : PlanFields) (s : State), Taking s →
    let good := f.F ≤ 240 ∧ 1 ≤ f.B ∧ f.B ≤ 120 ∧ f.P ≤ 5000 ∧ f.E ≤ 5000 ∧ f.C ≤ 100000 ∧ f.K ≤ 2000 ∧ f.W ≤ 60 ∧
      f.M ≤ 100000
    (8 ≤ plan ∨ ¬ good → exec (.tariffStage plan f) s = .next (setInHand 26 0 (plain .range) s)) ∧
    ∀ c : PlanClass, c.val = plan → good →
      ∃ plans : Vector PlanFields 8,
        exec (.tariffStage plan f) s =
          .next (setInHand 26 0 (done [])
            { s with setup :=
              { s.setup with staging := { s.setup.staging with plans := plans }, edited := true } }) ∧
        ∀ d : PlanClass, plans[d] = if d = c then f else s.setup.staging.plans[d]

/-- TARIFF COMMIT: a revision of 0 or above 65,535 is refused RANGE, one that current or previous holds REVISION USED,
and the generations are left unchanged; otherwise current becomes previous, staging with the new revision becomes
current, staging a copy of it with the edited flag clear, in one step that changes no card, slot, stamp or release, and the
reply carries both revisions. A restart, by the RESET pin, by RESTART or by mains return from OFF, finds the generations as they
were (R98). -/
def Obligations.TariffCommitMovesTheGenerations : Prop :=
  (∀ s : State, s.live.powered = true → s.live.storeValid = true →
    let kept := fun t : State => t.setup.current = s.setup.current ∧ t.setup.previous = s.setup.previous ∧
      t.setup.staging = s.setup.staging ∧ t.setup.edited = s.setup.edited
    (∃ t : State, exec .resetPin s = .next t ∧ kept t) ∧
    (∀ h, s.live.port.inHand = some h → s.live.port.startAfter = some .restart →
      ∃ t : State, exec .replySent s = .next t ∧ kept t) ∧
    (s.live.boot = none → s.live.power.state = .off → ∃ t : State, exec .mainsOkTrue s = .next t ∧ kept t)) ∧
  ∀ (r : Nat) (s : State), Taking s →
    let g := s.setup
    (r = 0 ∨ 65535 < r → exec (.tariffCommit r) s = .next (setInHand 27 0 (plain .range) s)) ∧
    (1 ≤ r → r ≤ 65535 → r = g.current.revision ∨ r = g.previous.revision →
      exec (.tariffCommit r) s =
        .next (setInHand 27 0 { result := .refused, reason := some .revisionUsed, body := [] } s)) ∧
    (1 ≤ r → r ≤ 65535 → r ≠ g.current.revision → r ≠ g.previous.revision →
      exec (.tariffCommit r) s =
        .next (setInHand 27 0 (done [b2 r, b2 g.current.revision])
          { s with setup :=
            { g with
              previous := g.current, current := { revision := r, plans := g.staging.plans }
              staging := { revision := r, plans := g.staging.plans }, edited := false } }))

/-- BAND SET: a value above 64 or L above H is refused RANGE and the band is left as it was; otherwise T is clamped into
L to H, the band takes the three values, the reply carries them, and the fill counts and fill state are recomputed, the
fill state being DEFICIT below L, SURPLUS above H and BALANCED otherwise (R130, R131). Nothing else of the part changes
but the attention set, so the work order of a visit stays. A restart keeps the band, and after a cold reset it is 0, 0
and 64 (R130); power applied with the battery good and the store valid is such a restart (DEDUCED, log 9). The seven counts
are those of R128's table, each of the docks it names there, and every step keeps the counts and the fill state in agreement
with the records (R129). -/
def Obligations.BandSetTakesTheBand : Prop :=
  (∀ L : Live, FillCounted L (countFill L)) ∧
  (∀ s t : State, FillAgrees s → step s = .next t → FillAgrees t) ∧
  (State.reset.setup.low = 0 ∧ State.reset.setup.target = 0 ∧ State.reset.setup.high = 64) ∧
  (∀ s : State,
    let kept := fun t : State => t.setup.low = s.setup.low ∧ t.setup.target = s.setup.target ∧ t.setup.high = s.setup.high
    let cold := fun t : State => t.setup.low = 0 ∧ t.setup.target = 0 ∧ t.setup.high = 64
    (s.live.powered = true → s.live.storeValid = true → ∃ t : State, exec .resetPin s = .next t ∧ kept t) ∧
    (s.live.powered = true → s.live.storeValid = false → ∃ t : State, exec .resetPin s = .next t ∧ cold t) ∧
    (s.live.powered = false → s.live.storeValid = true → ∃ t : State, exec (.powerApplied false) s = .next t ∧ kept t) ∧
    (s.live.powered = true → ∀ h k, s.live.port.inHand = some h → s.live.port.startAfter = some k →
      ∃ t : State, exec .replySent s = .next t ∧ (k = .restart → s.live.storeValid = true → kept t) ∧ (k = .cold → cold t))) ∧
  ∀ (low target high : Nat) (s : State), Taking s →
    (64 < low ∨ 64 < target ∨ 64 < high ∨ high < low →
      exec (.bandSet low target high) s = .next (setInHand 31 0 (plain .range) s)) ∧
    (low ≤ high → target ≤ 64 → high ≤ 64 →
      let t := if target < low then low else if high < target then high else target
      ∃ (fillState : FillState) (v : Vector EventFlag 9),
        exec (.bandSet low target high) s =
          .next (setInHand 31 0 (done [b1 low, b1 t, b1 high])
            { s with
              setup := { s.setup with low := low, target := t, high := high }
              live := { s.live with fill := countFill s.live, fillState := fillState, attention := v } }) ∧
        (fillState = .deficit ↔ (countFill s.live).hireable < low) ∧
        (fillState = .surplus ↔ low ≤ (countFill s.live).hireable ∧ high < (countFill s.live).hireable) ∧
        (fillState ≠ s.live.fillState → v[EventKind.fillChange.idx].pending = true) ∧
        (fillState = s.live.fillState → v = s.live.attention))

/-- PRESET SET, value and assign form: outside its ranges each is refused RANGE; otherwise the preset takes the value, or
the position the index, the reply is DONE, and where no position's counter stands at or above a changed applying preset
nothing else changes, a preset or index that keeps the value it had being no change; where one does, SERVICE DUE is live for
it, given room in the fault list (R158, R175). COUNTER RESET sets the position's counter to 0 and replies with the count
before; a position beyond D16 is refused RANGE; no other counter and nothing else changes (R176). -/
def Obligations.PresetsAndCountersAreSet : Prop :=
  (∀ (s : State), Taking s →
     (∀ n v, n = 0 ∨ 4 < n ∨ v = 0 ∨ 999999 < v →
       exec (.presetSetValue n v) s = .next (setInHand 39 0 (plain .range) s)) ∧
     (∀ p i, 64 ≤ p ∨ 4 < i → exec (.presetSetAssign p i) s = .next (setInHand 39 0 (plain .range) s)) ∧
     (∀ (n : Fin 4) v, 1 ≤ v → v ≤ 999999 →
       ∃ (g : Setup) (L : Live),
         exec (.presetSetValue (n.val + 1) v) s = .next (setInHand 39 0 (done []) { s with setup := g, live := L }) ∧
         g = { s.setup with presets := g.presets } ∧
         (∀ m : Fin 4, g.presets[m] = if m = n then some v else s.setup.presets[m]) ∧
         ((∀ p : Pos, (s.setup.presetIndex[p]).val = n.val + 1 → s.setup.presets[n] ≠ some v → s.live.counter p < v) →
           L = s.live) ∧
         (s.setup.presets[n] ≠ some v → FaultRoom 64 s.live → ∀ p : Pos, (s.setup.presetIndex[p]).val = n.val + 1 →
           v ≤ s.live.counter p → LiveFault .serviceDue (.position p) L)) ∧
     (∀ (p : Pos) (i : Fin 5),
       ∃ (g : Setup) (L : Live),
         exec (.presetSetAssign p.val i.val) s = .next (setInHand 39 0 (done []) { s with setup := g, live := L }) ∧
         g = { s.setup with presetIndex := g.presetIndex } ∧
         (∀ q : Pos, g.presetIndex[q] = if q = p then i else s.setup.presetIndex[q]) ∧
         ((∀ v, applying g p = some v → applying s.setup p ≠ some v → s.live.counter p < v) → L = s.live) ∧
         (FaultRoom 1 s.live → ∀ v, applying g p = some v → applying s.setup p ≠ some v → v ≤ s.live.counter p →
           LiveFault .serviceDue (.position p) L))) ∧
  ∀ (s : State), Taking s →
    (∀ pos, 64 ≤ pos → exec (.counterReset pos) s = .next (setInHand 41 0 (plain .range) s)) ∧
    ∀ p : Pos, ∃ v : Vector Nat 64,
      exec (.counterReset p.val) s =
        .next (setInHand 41 0 (done [b4 (s.live.counter p)]) { s with live := { s.live with counters := v } }) ∧
      ∀ q : Pos, v[q] = if q = p then 0 else s.live.counter q

/-- At reset the settings are in their ranges, the clock's second is below 60, the journal is numbered, the claims fit, the fill
counts agree with the records, no reservation stands and no two fault records are alike (R95, R96, R113, R118, R129, R130, R136,
R157, R174, R182, R190, R194). -/
def Obligations.ResetIsInItsRanges : Prop :=
  State.reset.setup.ok = true ∧ State.reset.live.clock.second < 60 ∧ State.reset.live.journal.numbered = true ∧
    ClaimsFit State.reset.live ∧ FillAgrees State.reset ∧ ReservedForVisit State.reset.live ∧
    FaultsDistinct State.reset.live

/-- Every step keeps the settings in their ranges: the tariff fields of R95, the band of R130, the station number and
slot length of R190, the expected counts of R1, the start order of R182, the hire settings of R93, the presets of
R174. -/
def Obligations.StepKeepsSettingsInRange : Prop :=
  ∀ s t : State, s.setup.ok = true → step s = .next t → t.setup.ok = true

/-! ## Clock, power state and start-up (chapter 9) -/

/-- SET TIME is refused RANGE for a second above 59, NO STATION while the station number is unset, CLOCK STEP for a step of
a valid clock back by more than 120 seconds without force; a refusal changes nothing. Otherwise the clock takes the minute
and second and becomes valid, the reply carries the clock before and after, and the settings, the power state and the arms'
states stay; with a valid clock and the same minute nothing else changes but what idle arms hand out. Where the minute
differs from the minute before, the pass check of the new minute is made, by the slots as they stood before any EXPIRED slot
is priced and settled (the order within the step: DEDUCED, log 51), and else no pass is closed (R66, R67, R189). Where the
clock was invalid, every READY or SILENT position has the resting code due, and every EXPIRED slot takes the present minute
as its end minute, the LATE flag and its fare, with CLOCK opened where the fare carries that flag, given room in the fault
list, and is settled at once: its HIRE END is written and its stamp a closing entry, or it is DEFERRED; the first by
position is settled first (the order of the positions is the model's: DESIGN CHOICE, log 67) (R45, R84, R88). -/
def Obligations.SetTimeSetsTheClock : Prop :=
  ∀ (minute second : Nat) (force : Bool) (s : State), Taking s →
    let c := s.live.clock
    let run := exec (.setTime minute second force) s
    let back := c.valid = true ∧ force = false ∧ minute * 60 + second + 120 < c.minute * 60 + c.second
    (59 < second → run = .next (setInHand 3 0 (plain .range) s)) ∧
    (second ≤ 59 → s.setup.station = none →
      run = .next (setInHand 3 0 { result := .refused, reason := some .noStation, body := [] } s)) ∧
    (second ≤ 59 → s.setup.station ≠ none → back → run = .next (setInHand 3 0 (plain .clockStep) s)) ∧
    (second ≤ 59 → s.setup.station ≠ none → ¬ back →
      ∃ t : State, run = .next t ∧ t.setup = s.setup ∧ t.pending = s.pending ∧
        t.live.clock = { minute := minute, second := second, valid := true } ∧
        t.live.port.inHand =
          some { kind := 3, tag := 0, reply := done (clockFlds c ++ clockFlds t.live.clock) } ∧
        t.live.power = s.live.power ∧ (∀ a : Arm, (t.live.arm a).state = (s.live.arm a).state) ∧
        let L := s.live
        let M := t.live
        (c.valid = true → minute = c.minute →
          M = { pump { L with clock := M.clock } with port := M.port }) ∧
        (minute ≠ c.minute → PassesChecked L M minute) ∧
        (minute = c.minute → ∀ id r, findCard L.cards id = some r →
          ∃ u, findCard M.cards id = some u ∧ u.closure = r.closure) ∧
        (c.valid = false →
          (∀ p : Pos, (L.dock p).inRotation = true → ∀ code, RestingDue p code M → (M.dock p).lastResting = some code) ∧
          (∀ (p : Pos) (y : Slot), (M.dock p).slot = some y → y.window ≠ .expired) ∧
          ∀ (p : Pos) (x : Slot), (L.dock p).slot = some x → x.window = .expired →
            let f := fareRequest s.setup x.stamp x.kind minute x.fill
            let priced := fun y : Slot => y.bike = x.bike ∧ y.stamp = x.stamp ∧ y.endMinute = some minute ∧
              y.fare = some f.1 ∧ y.fill = x.fill ∧ y.flags.late = true ∧ y.flags.clock = f.2.clock ∧
              ∃ z, y.settlement = some z ∧ z.finalNet = f.1.net ∧ (z.kind = .account ↔ x.stamp.pass = false)
            let at_ : Stamped := { minute := minute, unset := false }
            let closes := ∃ e ∈ M.closing, e.bike = x.bike ∧ e.start = x.stamp.start ∧ e.close = some minute
            let writes := fun r : JournalRec =>
              r.at_ = at_ ∧ r.subject = .bike x.bike ∧ ∃ y, r.body = .hireEnd y p ∧ priced y
            (FaultRoom 64 L → f.2.clock = true → LiveFault .clock (.bike x.bike) M) ∧
            ((∃ y, (M.dock p).slot = some y ∧ priced y ∧ (y.window = .deferredList ∨ y.window = .deferredJournal)) ∨
              (closes ∧ ∃ r ∈ M.journal.ring, L.journal.lastIssued < r.seq ∧ writes r)) ∧
            ((∀ (q : Pos) (y : Slot), q < p → (L.dock q).slot = some y → y.window ≠ .expired) →
              minute = c.minute → f.2.clock = false → endRoom L = true → closingFree L = true →
              closes ∧ L.journal.ring <+: M.journal.ring ∧
                ∃ r, M.journal.ring[L.journal.ring.length]? = some r ∧ r.seq = L.journal.lastIssued + 1 ∧ writes r)))

/-- One second passes: the command completes in every state, and the clock counts, its minute held at 4,294,967,295 (R188).
While the minute stays, the timers of queries count down, those of settlement windows out of OFF, that of an open visit in
RUN and QUIET and of none else, and nothing else changes (R56, R86, R150). An unpowered part and one in a start-up only
count their clock (logs 11 and 49). At a new minute of a valid clock, out of OFF, every pass that has expired with nothing
out and nothing to settle leaves the list or waits for the journal with its closure (R66, R67), and no other; with an
invalid clock and in OFF no card changes. The timers count at a new minute as they do within one. DESIGN CHOICE, log 5: the
seconds the part reports are counted by CLOCK_TICK. -/
def Obligations.ClockTickCountsASecond : Prop :=
  ∀ s : State,
    let c := s.live.clock
    let clock : Clock :=
      if c.second < 59 then { c with second := c.second + 1 }
      else if c.minute < 4294967295 then { c with minute := c.minute + 1, second := 0 } else c
    (∃ t : State, exec .clockTick s = .next t ∧ t.setup = s.setup ∧ t.pending = s.pending ∧
      t.live.power = s.live.power ∧ t.live.clock = clock) ∧
    (¬ Working s → exec .clockTick s = .next { s with live := { s.live with clock := clock } }) ∧
    (clock.minute = c.minute → Working s →
      ∃ (queries : List QueryRec) (docks : Vector DockRec 64) (visit : Visit),
        exec .clockTick s =
          .next { s with live := { s.live with clock := clock, queries := queries, docks := docks, visit := visit } } ∧
        queries = s.live.queries.map (fun q => { q with secondsLeft := q.secondsLeft - 1 }) ∧
        (s.live.power.state = .off → docks = s.live.docks) ∧
        (s.live.power.state ≠ .off → ∀ p : Pos,
          docks[p] = { s.live.dock p with slot := (s.live.dock p).slot.map fun x =>
            if x.window = .running ∨ x.window = .reported then { x with secondsLeft := x.secondsLeft - 1 } else x }) ∧
        (let counts := (s.live.visit.state = .opened ∨ s.live.visit.state = .working) ∧
            (s.live.power.state = .run ∨ s.live.power.state = .quiet)
         (counts → visit = { s.live.visit with
           data := s.live.visit.data.map fun v => { v with secondsLeft := v.secondsLeft - 1 } }) ∧
         (¬ counts → visit = s.live.visit))) ∧
    (clock.minute ≠ c.minute → Working s →
      ∃ t : State, exec .clockTick s = .next t ∧ TimersCounted s.live t.live ∧
        (s.live.power.state ≠ .off → c.valid = true → PassesChecked s.live t.live clock.minute) ∧
        (s.live.power.state = .off ∨ c.valid = false →
          t.live.cards = s.live.cards ∧ t.live.journal = s.live.journal))

/-- Every step keeps the clock's second below 60 (R188, R189). -/
def Obligations.StepKeepsClockSeconds : Prop :=
  ∀ s t : State, s.live.clock.second < 60 → step s = .next t → t.live.clock.second < 60

/-- QUIET in RUN or QUIET: ON makes the power state QUIET and OFF makes it RUN, a change raising POWER CHANGE; in HOLDOVER
it changes the return state alone. The shed set is the one R183 gives the state then, the clock and the other settings stay,
and the reply carries the power state (R179). At a change, and in HOLDOVER, the arm sequence of that shed set is built and
its first step taken; where the state asked for is there already nothing changes but the reply and what idle arms hand out
(R184, R185). -/
def Obligations.QuietChangesThePowerState : Prop :=
  ∀ (on : Bool) (s : State), Taking s →
    let run := exec (if on then .quietOn else .quietOff) s
    ∃ t : State, run = .next t ∧ t.setup = s.setup ∧ t.live.clock = s.live.clock ∧
      t.live.port.inHand = some { kind := 7, tag := 0, reply := done (powerFlds t.live) } ∧
      (s.live.power.state ≠ .holdover →
        t.live.power.state = (if on then .quiet else .run) ∧ t.live.power.returnQuiet = s.live.power.returnQuiet ∧
        (t.live.power.state ≠ s.live.power.state →
          t.live.attention[EventKind.powerChange.idx] =
              { pending := true, count := (s.live.attention[EventKind.powerChange.idx]).count + 1 } ∧
            (∀ a : Arm, t.live.power.shedSet[a] = (on && (s.setup.arms[a]).nightOff)) ∧
            Resequenced s.setup s.live t.live) ∧
        (t.live.power.state = s.live.power.state →
          run = .next (setInHand 7 0 (done (powerFlds s.live)) { s with live := pump s.live }))) ∧
      (s.live.power.state = .holdover →
        t.live.power.state = .holdover ∧ t.live.power.returnQuiet = on ∧
        t.live.attention[EventKind.powerChange.idx] = s.live.attention[EventKind.powerChange.idx] ∧
        (∀ a : Arm, t.live.power.shedSet[a] =
          (!(s.setup.arms[a]).holdoverKeep || (on && (s.setup.arms[a]).nightOff))) ∧
        Resequenced s.setup s.live t.live)

/-- MAINS_OK becoming false: in RUN and QUIET the part enters HOLDOVER, keeping the state it left as the return state, and
POWER CHANGE is raised. Every rider release and crew action whose UNLATCH is still queued at a dock with a known node, of an
arm that is not OFF, is withdrawn, its latch HELD; at a dock of an arm that stays on, and with no record waiting for the
journal, STATION CLOSED is shown there. The withdrawn releases' claims are dropped and their cards given back, and no other
release or crew action of such an arm ends, every UNLATCH waiting at the arm of its position (R11). Every READY or SILENT
position of such an arm has STATION CLOSED as its resting code, and the arm sequence of the shed set of HOLDOVER is built
and its first step taken (R184, R185). With BATT_LOW true it goes on to OFF at once, raising it again (log 13), with every
arm STOPPING that was STARTING, RUNNING or SERVICE, every arm in the shed set and no sequence in flight; an open visit is
closed POWER then, with VAN DONE raised and its reservations and queued crew pickups gone. In HOLDOVER and OFF the level
alone is kept (R45, R77, R118, R143, R151, R178, R180, R181). -/
def Obligations.MainsLossEntersHoldover : Prop :=
  ∀ s : State, Working s →
    let P := s.live.power
    let count := (s.live.attention[EventKind.powerChange.idx]).count
    (P.state = .holdover ∨ P.state = .off →
      exec .mainsOkFalse s = .next { s with live := { s.live with power := { P with mainsOk := false } } }) ∧
    (P.state = .run ∨ P.state = .quiet →
      ∃ t : State, exec .mainsOkFalse s = .next t ∧ t.setup = s.setup ∧ t.live.clock = s.live.clock ∧
        t.live.power.mainsOk = false ∧ t.live.power.returnQuiet = decide (P.state = .quiet) ∧
        (P.battLow = false →
          t.live.power.state = .holdover ∧
          t.live.attention[EventKind.powerChange.idx] = { pending := true, count := count + 1 } ∧
          (∀ a : Arm, t.live.power.shedSet[a] =
            (!(s.setup.arms[a]).holdoverKeep || (decide (P.state = .quiet) && (s.setup.arms[a]).nightOff))) ∧
          Resequenced s.setup s.live t.live ∧
          (let L := s.live
           let M := t.live
           let withdrawn := fun (p : Pos) => (findRelease L p).isSome && unlatchQueued L p
           let on := fun p : Pos => (L.arm (armOf p)).state ≠ .off
           let kept := fun p : Pos => M.power.shedSet[armOf p] = false ∧ on p
           let quiet := firstWriter L = none ∧ ∀ p : Pos, (L.dock p).latch = some .held → (L.dock p).known = true
           let own := ∀ (b : Arm) (p : Pos), ∀ e ∈ (L.arm b).queue, e.unlatches p = true → armOf p = b
           (own → M.journal.claims = L.journal.claims - allPos.countP withdrawn) ∧
           (own → quiet → ∀ id x, findCard L.cards id = some x →
             findCard M.cards id =
               some { x with outCount := x.outCount - allPos.countP (fun p =>
                 withdrawn p && (findRelease L p).any (fun r => r.stamp.card = id)) }) ∧
           ∀ p : Pos,
             (∀ r, findRelease L p = some r → unlatchQueued L p = true → (L.dock p).known = true → on p →
               ReleaseWithdrawn p r .stationClosed L M ∧ (quiet → kept p → Shows p .stationClosed M)) ∧
             (∀ c, findRelease L p = none → findCrew L p = some c → unlatchQueued L p = true →
               (L.dock p).known = true → on p → CrewWithdrawn p M ∧ (quiet → kept p → Shows p .stationClosed M)) ∧
             (own → ∀ r ∈ L.releases, r.pos = p → unlatchQueued L p = false → kept p → r ∈ M.releases) ∧
             (own → ∀ c ∈ L.crew, c.pos = p → unlatchQueued L p = false → kept p → c ∈ M.crew) ∧
             ((L.dock p).inRotation = true → kept p → (M.dock p).lastResting = some .stationClosed))) ∧
        (P.battLow = true →
          t.live.power.state = .off ∧
          t.live.attention[EventKind.powerChange.idx] = { pending := true, count := count + 2 } ∧
          t.live.power.sequence = [] ∧
          (s.live.visit.state = .opened ∨ s.live.visit.state = .working → VisitClosed .power s.live t.live) ∧
          ∀ a : Arm, t.live.power.shedSet[a] = true ∧
            (((s.live.arm a).state.active = true → (t.live.arm a).state = .stopping ∧
                t.live.power.shedMark[a] = true) ∧
              ((s.live.arm a).state.active = false → (t.live.arm a).state = (s.live.arm a).state))))

/-- MAINS_OK becoming true: HOLDOVER is left for the return state with POWER CHANGE raised and the shed set of that
state, whose arm sequence is built and its first step taken; in RUN and QUIET the level alone is kept; in OFF a restart
begins (R178, R180, R184, R185). -/
def Obligations.MainsReturnLeavesHoldover : Prop :=
  ∀ s : State, Working s →
    let P := s.live.power
    let raised := { s with live := { s.live with power := { P with mainsOk := true } } }
    (P.state = .run ∨ P.state = .quiet → exec .mainsOkTrue s = .next raised) ∧
    (P.state = .off → exec .mainsOkTrue s = .next (beginStartup .restart raised)) ∧
    (P.state = .holdover →
      ∃ t : State, exec .mainsOkTrue s = .next t ∧ t.setup = s.setup ∧ t.live.clock = s.live.clock ∧
        t.live.power.mainsOk = true ∧ t.live.power.state = (if P.returnQuiet then .quiet else .run) ∧
        t.live.attention[EventKind.powerChange.idx] =
          { pending := true, count := (s.live.attention[EventKind.powerChange.idx]).count + 1 } ∧
        (∀ a : Arm, t.live.power.shedSet[a] = (P.returnQuiet && (s.setup.arms[a]).nightOff)) ∧
        Resequenced s.setup s.live t.live)

/-- BATT_LOW: becoming false it is kept as a level and nothing else changes, and so it is becoming true in every power state
but HOLDOVER; in HOLDOVER the part enters OFF with POWER CHANGE raised, and every arm that was STARTING, RUNNING or SERVICE
is STOPPING with a shed mark, every other arm as it was; an arm sequence in flight is abandoned and every arm is in the shed
set. An open visit is closed POWER, with VAN DONE raised, its reservations and queued crew pickups gone, and its VAN VISIT
the first record appended where there is room and no record waits (R143, R150–R152, R178, R181). -/
def Obligations.LowBatteryInHoldoverEntersOff : Prop :=
  ∀ s : State, Working s →
    let P := s.live.power
    exec .battLowFalse s = .next { s with live := { s.live with power := { P with battLow := false } } } ∧
    (P.state ≠ .holdover →
      exec .battLowTrue s = .next { s with live := { s.live with power := { P with battLow := true } } }) ∧
    (P.state = .holdover →
      ∃ t : State, exec .battLowTrue s = .next t ∧ t.setup = s.setup ∧ t.live.clock = s.live.clock ∧
        t.live.power.battLow = true ∧ t.live.power.state = .off ∧
        t.live.attention[EventKind.powerChange.idx] =
          { pending := true, count := (s.live.attention[EventKind.powerChange.idx]).count + 1 } ∧
        t.live.power.sequence = [] ∧ t.live.power.waiting = false ∧
        (∀ a : Arm, t.live.power.shedSet[a] = true ∧
          ((s.live.arm a).state.active = true → (t.live.arm a).state = .stopping ∧ t.live.power.shedMark[a] = true) ∧
          ((s.live.arm a).state.active = false → (t.live.arm a).state = (s.live.arm a).state ∧
            t.live.power.shedMark[a] = P.shedMark[a])) ∧
        (s.live.visit.state = .opened ∨ s.live.visit.state = .working →
          VisitClosed .power s.live t.live ∧
            ∀ v, s.live.visit.data = some v → endRoom s.live = true →
              s.live.journal.ring ++
                [{ seq := s.live.journal.lastIssued + 1, at_ := now s.live, subject := .station
                   body := .vanVisit v.van (v.pickupsPlanned, v.dropsPlanned, v.collectionsPlanned)
                     (v.pickupsDone, v.dropsDone, v.collectionsDone) .power }] <+: t.live.journal.ring))

/-- The SERVICE line: its level is kept, and every arm that is RUNNING and held in service by it or by its request enters
SERVICE, every SERVICE arm that nothing holds returns to RUNNING, every other arm keeps its state. An arm that enters
SERVICE loses its query entries, without answer, and its reservations; its rider releases and crew actions whose UNLATCH is
still queued are withdrawn, with DOCK OUT OF SERVICE shown where no record waits for the journal. Every READY or SILENT
position of an arm that enters or leaves has the resting code due, and its node is offered the lamp due, given an empty
queue and no record that waits; ARM CHANGE is raised once for each such arm (that the arms are taken one by one: DESIGN
CHOICE, log 81) (R2, R32, R45, R60, R77, R143, R148, R186). -/
def Obligations.ServiceLineHoldsItsArms : Prop :=
  ∀ (level : Bool) (s : State), Working s →
    ∃ t : State, exec (if level then .serviceLineAsserted else .serviceLineReleased) s = .next t ∧
      t.setup = s.setup ∧ t.live.clock = s.live.clock ∧ t.live.power = { s.live.power with service := level } ∧
      let L := s.live
      let M := t.live
      let held := fun a : Arm => (level && (s.setup.arms[a]).service) || L.power.request[a]
      let enters := fun a : Arm => decide ((L.arm a).state = .running) && held a
      let leaves := fun a : Arm => decide ((L.arm a).state = .service) && !held a
      let changes := (List.finRange 4).countP fun a => enters a || leaves a
      let quiet := firstWriter L = none
      (∀ a : Arm, (M.arm a).state = if enters a then .service else if leaves a then .running else (L.arm a).state) ∧
        M.attention[EventKind.armChange.idx] =
          { pending := (L.attention[EventKind.armChange.idx]).pending || decide (0 < changes)
            count := (L.attention[EventKind.armChange.idx]).count + BitVec.ofNat 8 changes } ∧
        M.queries = L.queries.filter (fun q => !enters (armOf q.pos)) ∧
        (∀ p : Pos, enters (armOf p) = true → (M.dock p).reservation = .none ∧
          (∀ r, findRelease L p = some r → unlatchQueued L p = true →
            ReleaseWithdrawn p r .dockOutOfService L M ∧ (quiet → Shows p .dockOutOfService M)) ∧
          (∀ c, findRelease L p = none → findCrew L p = some c → unlatchQueued L p = true →
            CrewWithdrawn p M ∧ (quiet → Shows p .dockOutOfService M))) ∧
        ∀ p : Pos, enters (armOf p) = true ∨ leaves (armOf p) = true → (L.dock p).inRotation = true →
          (∀ c, RestingDue p c M → (M.dock p).lastResting = some c) ∧
          ∀ l, LampDue p l M → (L.dock p).lamp ≠ some l → lampPending L p = false → (L.arm (armOf p)).queue = [] →
            quiet → OnItsWay { pos := p, command := .lamp l, issuer := .dockTable } M

/-- SEQUENCE STEP: with no sequence in flight, or one that waits for a stop to end, nothing changes (DESIGN CHOICE, log
6). Otherwise the steps whose arm they cannot serve are skipped at once and the first other step is taken: a START finds
its arm OFF, makes it STARTING and clears its shed mark, a STOP finds its arm STARTING, RUNNING or SERVICE and makes it
STOPPING with a shed mark, a START of a STOPPING arm waits; the rest of the sequence is in flight then and no other arm's
state changes. The sequence keeps the membership it was built with, and a discovery that its START step begins is marked as
its own (R1; DEDUCED, log 63). Where every step is skipped the sequence is over and nothing else changes but what idle arms
hand out (R183–R185). -/
def Obligations.SequenceStepTakesTheNextStep : Prop :=
  ∀ s : State, Working s →
    let P := s.live.power
    let passed := fun x : StepAction × Arm => passedOver s.live x = true
    let keeps := fun (started : Arm → Prop) (t : State) => t.live.power.members = P.members ∧
      ∀ b : Arm, t.live.power.begun[b] = true ↔ started b ∨ P.begun[b] = true
    (P.waiting = true ∨ P.sequence = [] → exec .sequenceStep s = .next s) ∧
    (P.waiting = false → P.sequence ≠ [] → (∀ x ∈ P.sequence, passed x) →
      exec .sequenceStep s =
        .next { s with live := pump { s.live with power := { P with sequence := [], waiting := false } } }) ∧
    ∀ (skipped : List (StepAction × Arm)) (action : StepAction) (a : Arm) (rest : List (StepAction × Arm)),
      P.waiting = false → P.sequence = skipped ++ (action, a) :: rest → (∀ x ∈ skipped, passed x) →
      (action = .start → (s.live.arm a).state = .off →
        ∃ t : State, exec .sequenceStep s = .next t ∧ t.setup = s.setup ∧ (t.live.arm a).state = .starting ∧
          t.live.power.shedMark[a] = false ∧ t.live.power.sequence = rest ∧ t.live.power.state = P.state ∧ keeps (· = a) t ∧
          ∀ b : Arm, b ≠ a → (t.live.arm b).state = (s.live.arm b).state) ∧
      (action = .stop → (s.live.arm a).state.active = true →
        ∃ t : State, exec .sequenceStep s = .next t ∧ t.setup = s.setup ∧ (t.live.arm a).state = .stopping ∧
          t.live.power.shedMark[a] = true ∧ t.live.power.sequence = rest ∧ t.live.power.state = P.state ∧
          keeps (fun _ => False) t ∧ ∀ b : Arm, b ≠ a → (t.live.arm b).state = (s.live.arm b).state) ∧
      (action = .start → (s.live.arm a).state = .stopping →
        ∃ t : State, exec .sequenceStep s = .next t ∧ t.live.power.waiting = true ∧
          t.live.power.sequence = (action, a) :: rest ∧ keeps (fun _ => False) t ∧ ∀ b : Arm, (t.live.arm b).state = (s.live.arm b).state)

/-- A restart with a valid retained store keeps the card list, the tariff, the journal without its claims, the closing list,
the visit, the fault list, the counters, the clock, the settlement slots and deferred moves; every arm is OFF, every
position ABSENT, releases, remote entries, queries and crew actions are gone, the hire settings and the slot length are
their defaults, and the part waits for its lines (R25, R93, R126, R182, R191, R193). The RESET pin begins it, in the middle
of a start-up too by the store as it stands then (DEDUCED, log 78), and so does power that is applied with the battery good
(DEDUCED, log 9). That the lines are read in a step of their own is log 1. -/
def Obligations.RestartKeepsTheRetainedStore : Prop :=
  ∀ s : State, s.live.storeValid = true →
    ∃ t : State,
      (s.live.powered = true → exec .resetPin s = .next t) ∧
      (s.live.powered = false → exec (.powerApplied false) s = .next t) ∧
      t.setup = { s.setup with slotMs := 250, takeWindow := 30, settleWindow := 60, queryTimeout := 3 } ∧
      t.pending = s.pending ∧ t.live.cards = s.live.cards ∧ t.live.closing = s.live.closing ∧
      t.live.journal = { s.live.journal with claims := 0 } ∧ t.live.visit = s.live.visit ∧
      t.live.faults = s.live.faults ∧ t.live.nextFault = s.live.nextFault ∧ t.live.counters = s.live.counters ∧
      t.live.clock = s.live.clock ∧
      (∀ p : Pos, t.live.dock p =
        { DockRec.cold with slot := (s.live.dock p).slot, moves := (s.live.dock p).moves }) ∧
      (∀ a : Arm, t.live.arm a = ArmRec.initial) ∧ t.live.releases = [] ∧ t.live.remotes = [] ∧
      t.live.queries = [] ∧ t.live.crew = [] ∧ t.live.port = Port.initial ∧ t.live.attention = attentionEmpty ∧
      t.live.boot = some .restart ∧ t.live.powered = true

/-- Without a valid retained store, or with the battery flat when power is applied, a start-up is a cold reset: the part is
as State.reset has it, but for the commands that wait (R191, R192, R194). Power applied to a part that has it, and the RESET
pin of a part without supply, change nothing; losing the supply changes the supply alone. What State.reset is before the
lines are read is logs 1 and 2, the good battery with an invalid store log 9, what an unpowered part does log 11. -/
def Obligations.LostStoreMakesAColdReset : Prop :=
  ∀ s : State,
    let cold := { State.reset with pending := s.pending }
    (s.live.powered = true → s.live.storeValid = false → exec .resetPin s = .next cold) ∧
    (s.live.powered = false → s.live.storeValid = false → exec (.powerApplied false) s = .next cold) ∧
    (s.live.powered = false → exec (.powerApplied true) s = .next cold) ∧
    (∀ flat, s.live.powered = true → exec (.powerApplied flat) s = .next s) ∧
    (s.live.powered = false → exec .resetPin s = .next s) ∧
    exec .powerRemoved s = .next { s with live := { s.live with powered := false } }

/-- The lines read in a start-up choose the power state: RUN with MAINS_OK true, HOLDOVER with it false and BATT_LOW false,
OFF with both against it, and the shed set with it. The start-up is over then and RESTARTED or COLD START is raised once;
with no start-up in progress nothing changes (DESIGN CHOICES: log 6, and log 1 for the lines as a step of their own). The
arms in the shed set take shed marks and the others none; out of OFF the sequence of START steps for the arms outside it, in
start order, is built and its first step taken, and in OFF there is none (R184, R185). On the tables a start-up begins with,
an open visit is closed RESTART with VAN DONE raised, no window runs any more, no closing entry is SENDING, and the first
slot by position whose window ran is settled with its HIRE END before the others (the order of the positions is the model's:
DESIGN CHOICE, log 68), or else the first slot or move that waits for the journal is written first, where there is room
(R94, R121, R126, R183, R193, R194). -/
def Obligations.StartupLinesChooseThePowerState : Prop :=
  ∀ (mains batt service : Bool) (s : State), s.live.powered = true →
    let L := s.live
    (L.boot = none → exec (.startupLineRead mains batt service) s = .next s) ∧
    ∀ kind : StartKind, L.boot = some kind →
      ∃ t : State, exec (.startupLineRead mains batt service) s = .next t ∧ t.setup = s.setup ∧
        t.live.boot = none ∧ t.live.clock = L.clock ∧
        t.live.power.mainsOk = mains ∧ t.live.power.battLow = batt ∧ t.live.power.service = service ∧
        t.live.power.state = (if mains then .run else if batt then .off else .holdover) ∧
        (∀ a : Arm, t.live.power.shedSet[a] =
          if mains then false else if batt then true else !(s.setup.arms[a]).holdoverKeep) ∧
        (let starts := s.setup.startOrder.filter fun a => !t.live.power.shedSet[a]
         t.live.power.state ≠ .off →
           SequenceBegun s.setup (starts.map fun a => (.start, a)) t.live.power.shedSet L t.live) ∧
        (t.live.power.state = .off → t.live.power.sequence = [] ∧
          ArmsKeep (fun _ => False) t.live.power.shedSet L t.live) ∧
        t.live.attention[kind.event.idx] =
          { pending := true, count := (L.attention[kind.event.idx]).count + 1 } ∧
        ((∀ p : Pos, L.dock p = { DockRec.cold with slot := (L.dock p).slot, moves := (L.dock p).moves }) →
          (∀ a : Arm, L.arm a = ArmRec.initial) → L.releases = [] → L.crew = [] →
          let open_ := L.visit.state = .opened ∨ L.visit.state = .working
          let windowOver := fun x : Slot => x.window ≠ .running ∧ x.window ≠ .reported
          let written := fun (at_ : Stamped) (subject : Subject) (body : JournalBody) =>
            L.journal.ring ++ [{ seq := L.journal.lastIssued + 1, at_ := at_, subject := subject, body := body }] <+:
              t.live.journal.ring
          (open_ → ∀ v, L.visit.data = some v →
            t.live.visit.state = .closed ∧
              (∃ waits, t.live.visit.data =
                some { v with close := some (.restart, now L), secondsLeft := 0, summaryPending := waits }) ∧
              t.live.attention[EventKind.vanDone.idx] =
                { pending := true, count := (L.attention[EventKind.vanDone.idx]).count + 1 }) ∧
          (∀ (p : Pos) (x : Slot), (t.live.dock p).slot = some x → windowOver x) ∧
          (∀ e ∈ t.live.closing, e.state ≠ .sending) ∧
          (¬ open_ → ∀ (p : Pos) (x : Slot), (L.dock p).slot = some x → ¬ windowOver x →
            (∀ (q : Pos) (y : Slot), q < p → (L.dock q).slot = some y → windowOver y) →
            endRoom L = true → closingFree L = true →
            ∃ y : Slot, y.bike = x.bike ∧ y.stamp = x.stamp ∧ y.settlement ≠ none ∧
              written (now L) (.bike x.bike) (.hireEnd y p)) ∧
          (¬ open_ → (∀ (p : Pos) (x : Slot), (L.dock p).slot = some x → windowOver x) → 0 < L.journal.room →
            (∀ (p : Pos) (x : Slot), firstWriter L = some (.slot p) → (L.dock p).slot = some x →
              written (x.asked.getD (now L)) (.bike x.bike) (.hireEnd x p)) ∧
            (∀ (p : Pos) (m : Move) (ms : List Move), firstWriter L = some (.move p) → (L.dock p).moves = m :: ms →
              written m.at_ (.position p) (.bikeMove m.reason m.bike m.merged))))

/-! ## Arms and rack links (chapter 1) -/

/-- ARM SERVICE: an arm beyond D is refused RANGE, an arm the SERVICE line holds LINE OWNED, a FAILED arm ARM FAILED, and
nothing changes; otherwise ENTER sets and LEAVE clears the arm's service request, a RUNNING arm enters SERVICE at ENTER,
a SERVICE arm becomes RUNNING at LEAVE, every other state stays, and the reply carries the arm state after it (R187).
Entering SERVICE removes the arm's query entries without answer and its reservations, withdraws the rider releases and crew
actions whose UNLATCH is still queued, with DOCK OUT OF SERVICE shown where no record waits for the journal, and offers
every READY or SILENT node the lamp due, given an empty queue; entering and leaving place the resting code due there (R32,
R45, R60, R77, R143, R148, R186). -/
def Obligations.ArmServiceSetsTheRequest : Prop :=
  ∀ (enter : Bool) (arm : Nat) (s : State), Taking s →
    let run := exec (if enter then .armServiceEnter arm else .armServiceLeave arm) s
    (4 ≤ arm → run = .next (setInHand 8 0 (plain .range) s)) ∧
    ∀ a : Arm, a.val = arm →
      let lineHolds := s.live.power.service && (s.setup.arms[a]).service
      let before := (s.live.arm a).state
      (lineHolds = true → run = .next (setInHand 8 0 (plain .lineOwned) s)) ∧
      (lineHolds = false → before = .failed →
        run = .next (setInHand 8 0 { result := .refused, reason := some .armFailed, body := [] } s)) ∧
      (lineHolds = false → before ≠ .failed →
        ∃ t : State, run = .next t ∧ t.setup = s.setup ∧ t.live.clock = s.live.clock ∧
          t.live.power.state = s.live.power.state ∧
          (∀ b : Arm, t.live.power.request[b] = if b = a then enter else s.live.power.request[b]) ∧
          (t.live.arm a).state =
            (if before = .running ∧ enter = true then .service
             else if before = .service ∧ enter = false then .running else before) ∧
          (∀ b : Arm, b ≠ a → (t.live.arm b).state = (s.live.arm b).state) ∧
          t.live.port.inHand =
            some { kind := 8, tag := 0, reply := done [b1 (armStateNum (t.live.arm a).state)] } ∧
          let L := s.live
          let M := t.live
          let quiet := firstWriter L = none
          (before = .running → enter = true → GivenUp a L M ∧ ∀ p : Pos, armOf p = a →
            (∀ r, findRelease L p = some r → unlatchQueued L p = true →
              ReleaseWithdrawn p r .dockOutOfService L M ∧ (quiet → Shows p .dockOutOfService M)) ∧
            (∀ c, findRelease L p = none → findCrew L p = some c → unlatchQueued L p = true →
              CrewWithdrawn p M ∧ (quiet → Shows p .dockOutOfService M))) ∧
          ((before = .running ∧ enter = true) ∨ (before = .service ∧ enter = false) →
            ∀ p : Pos, armOf p = a → (L.dock p).inRotation = true →
              (∀ c, RestingDue p c M → (M.dock p).lastResting = some c) ∧
              ∀ l, LampDue p l M → (L.dock p).lamp ≠ some l → lampPending L p = false → (L.arm a).queue = [] →
                OnItsWay { pos := p, command := .lamp l, issuer := .dockTable } M))

/-- ARM DISCOVER: an OFF arm outside the shed set becomes STARTING in a full discovery, its root switch closed, its walk
waiting one slot before position 1 and its shed mark cleared; an idle RUNNING arm begins an extension and stays RUNNING
while it lasts; both are ACCEPTED. The extension passes the READY and SILENT positions: at the first other position it is
PROBING and the walk's IDENTIFY goes to it where its feeding switch is the root or recorded CLOSED, and PASS POWER goes to
the node below it otherwise; where all sixteen answer, the extension has ended, the arm RUNNING or, where it is held in
service by its record or its request, in SERVICE, ARM CHANGE is raised once and ARM SHORTFALL tested. Neither is a sequence's
discovery, so the membership of a sequence in flight does not count at its end (DEDUCED, log 63). In the shed set it is refused STATION CLOSED, while the arm is busy, STARTING, SERVICE or STOPPING it is answered
BUSY, FAILED gives ARM FAILED, an arm beyond D RANGE, and nothing changes (R2, R5, R6, R8, R9, R183, R186). -/
def Obligations.ArmDiscoverBeginsADiscovery : Prop :=
  ∀ (arm : Nat) (s : State), Taking s →
    let run := exec (.armDiscover arm) s
    let refused := fun r : Reply => run = .next (setInHand 12 0 r s)
    (4 ≤ arm → refused (plain .range)) ∧
    ∀ a : Arm, a.val = arm →
      let r := s.live.arm a
      let idle := r.discovery = none ∧ r.work = .none
      let accepted := fun t : State => run = .next t ∧ t.setup = s.setup ∧
        t.live.port.inHand = some { kind := 12, tag := 0, reply := plain .accepted } ∧
        t.live.power.shedMark[a] = false ∧ t.live.power.begun[a] = false ∧ t.live.power.state = s.live.power.state ∧
        ∀ b : Arm, b ≠ a → (t.live.arm b).state = (s.live.arm b).state
      (r.state = .off → s.live.power.shedSet[a] = true →
        refused { result := .refused, reason := some (.display .stationClosed), body := [] }) ∧
      (r.state = .off → s.live.power.shedSet[a] = false →
        ∃ t : State, accepted t ∧ (t.live.arm a).state = .starting ∧ (t.live.arm a).rootClosed = true ∧
          (t.live.arm a).discovery = some .full ∧ (t.live.arm a).work = .waitSlot 1) ∧
      (r.state = .running → idle →
        let answers := fun i : Nat => (s.live.dock (posAt a i)).inRotation = true
        (∀ k, 1 ≤ k → k ≤ 16 → ¬ answers k → (∀ i, 1 ≤ i → i < k → answers i) →
          let fed := k = 1 ∨ (s.live.link (posAt a (k - 1))).switch = .closed
          let free := r.txn = none ∧ r.repower = []
          ∃ t : State, accepted t ∧ (t.live.arm a).state = .running ∧ (t.live.arm a).discovery = some .extended ∧
            (fed → (t.live.arm a).work = .probe k 0 ∧ (t.live.dock (posAt a k)).link = .probing ∧
              (free → (t.live.arm a).txn = some (.probe k))) ∧
            (¬ fed → (t.live.arm a).work = .feed k ∧
              (t.live.dock (posAt a k)).link = (s.live.dock (posAt a k)).link ∧
              (free → (t.live.arm a).txn = some (.passPower (k - 1))))) ∧
        ((∀ i, 1 ≤ i → i ≤ 16 → answers i) →
          ∃ t : State, accepted t ∧ DiscoveryEnded 1 s.setup a s.live t.live)) ∧
      (r.state = .running → ¬ idle → refused (plain .busy)) ∧
      (r.state = .starting ∨ r.state = .service ∨ r.state = .stopping → refused (plain .busy)) ∧
      (r.state = .failed → refused { result := .refused, reason := some .armFailed, body := [] })

/-- ARM OFF: a STARTING or RUNNING arm, and a SERVICE arm the line does not hold, becomes STOPPING with ARM CHANGE raised
once and the request ACCEPTED; a SERVICE arm the line holds is LINE OWNED, a FAILED arm ARM FAILED, an arm beyond D
RANGE; on an OFF arm the reply is DONE and on a STOPPING arm ACCEPTED, with no arm's state changed (R2, R21, R22). An arm
that was RUNNING loses its query entries, without answer, and its reservations (R60, R148). With no transaction in progress
the root is opened at once: no command is left, every position is DARK with a known node and ABSENT without, one that was
PROBING among them (DEDUCED, log 16), and at a known
dock a release whose UNLATCH was queued has ended with the latch HELD, one whose latch was OPEN is UNCERTAIN (R19, R42,
R74); with one in progress that waits for its end (DEDUCED, log 14). -/
def Obligations.ArmOffStopsTheArm : Prop :=
  ∀ (arm : Nat) (s : State), Taking s →
    let run := exec (.armOff arm) s
    let refused := fun r : Reply => run = .next (setInHand 13 0 r s)
    (4 ≤ arm → refused (plain .range)) ∧
    ∀ a : Arm, a.val = arm →
      let before := (s.live.arm a).state
      let lineHolds := s.live.power.service && (s.setup.arms[a]).service
      let answered := fun (t : State) (r : Reply) => run = .next t ∧ t.setup = s.setup ∧
        t.live.power = s.live.power ∧ t.live.port.inHand = some { kind := 13, tag := 0, reply := r } ∧
        ∀ b : Arm, b ≠ a → (t.live.arm b).state = (s.live.arm b).state
      (before = .starting ∨ before = .running ∨ (before = .service ∧ lineHolds = false) →
        ∃ t : State, answered t (plain .accepted) ∧ (t.live.arm a).state = .stopping ∧
          t.live.attention[EventKind.armChange.idx] =
            { pending := true, count := (s.live.attention[EventKind.armChange.idx]).count + 1 } ∧
          (before = .running → GivenUp a s.live t.live) ∧
          ((s.live.arm a).txn ≠ none → (t.live.arm a).stopWaits = true ∧
            (t.live.arm a).txn = (s.live.arm a).txn ∧ (t.live.arm a).rootClosed = (s.live.arm a).rootClosed) ∧
          ((s.live.arm a).txn = none →
            (t.live.arm a).rootClosed = false ∧ (t.live.arm a).queue = [] ∧ (t.live.arm a).resend = none ∧
            ∀ p : Pos, armOf p = a →
              let d := s.live.dock p
              (t.live.dock p).link = (if d.known then .dark else .absent) ∧ (t.live.link p).switch = .opened ∧
              (d.known = true → d.latch = some .opened → (∀ e ∈ (s.live.arm a).queue, e.unlatches p = false) →
                (t.live.dock p).latch = some .uncertain) ∧
              (∀ r, d.known = true → findRelease s.live p = some r → unlatchQueued s.live p = true →
                (s.live.arm a).resend = none →
                (t.live.dock p).latch = some .held ∧ ∀ x ∈ t.live.releases, x.pos ≠ p))) ∧
      (before = .service ∧ lineHolds = true → refused (plain .lineOwned)) ∧
      (before = .failed → refused { result := .refused, reason := some .armFailed, body := [] }) ∧
      (before = .off → ∃ t : State, answered t (done []) ∧ (t.live.arm a).state = before) ∧
      (before = .stopping → ∃ t : State, answered t (plain .accepted) ∧ (t.live.arm a).state = before)

/-- The root sense after a root switch was opened: NO LOAD makes the STOPPING arm OFF, LOAD and OVERCURRENT make it FAILED,
and no other arm's state changes where no START step waits for the stop; one that waits is taken at NO LOAD, and its arm is
STARTING in a discovery of the sequence, which keeps its membership (R1; DEDUCED, log 63). While the arm's last transaction is still in progress (log 14), and on an arm that awaits no reading (DESIGN
CHOICE, log 6), nothing changes. In a walk's diagnosis at the root NO LOAD ends the discovery with every position ABSENT,
the arm RUNNING or in SERVICE as it is held then, ARM CHANGE raised and ARM SHORTFALL tested (R8, the membership: DEDUCED,
log 63), LOAD opens NODE DEAD and OVERCURRENT LINE SHORT for position 01 and the root opening follows; in a localization at
the root NO LOAD opens LINE OPEN and OVERCURRENT LINE SHORT with the root opening, and at LOAD the IDENTIFY tries at
position 01 follow. A stop that ends in LOAD or OVERCURRENT opens ARM FAILED with the station as subject, and one after a
second line fault that ends in NO LOAD opens LINE SHORT with the arm as subject. The faults are told given room in the fault
list (R2, R7, R17, R19–R21, R185, R186). -/
def Obligations.RootSenseEndsTheStop : Prop :=
  ∀ (a : Arm) (sense : Sense) (s : State), Working s →
    let r := s.live.arm a
    let P := s.live.power
    let run := exec (.rootSenseReading a sense) s
    let opens := fun kind : FaultKind => ∃ t : State, run = .next t ∧ t.setup = s.setup ∧
      (t.live.arm a).state = .stopping ∧ (t.live.arm a).work = .none ∧
      (FaultRoom 1 s.live → LiveFault kind (.position (posAt a 1)) t.live)
    (r.state = .stopping → r.stopWaits = false → P.waiting = false →
      ∃ t : State, run = .next t ∧ t.setup = s.setup ∧
        (t.live.arm a).state = (if sense = .noLoad then .off else .failed) ∧
        (FaultRoom 1 s.live →
          (sense ≠ .noLoad → LiveFault .armFailed .station t.live) ∧
          (sense = .noLoad → r.secondFault = true → LiveFault .lineShort (.arm a) t.live)) ∧
        ∀ b : Arm, b ≠ a → (t.live.arm b).state = (s.live.arm b).state) ∧
    (∀ rest, r.state = .stopping → r.stopWaits = false → P.waiting = true → P.sequence = (.start, a) :: rest →
      ∃ t : State, run = .next t ∧ t.setup = s.setup ∧ t.live.power.state = P.state ∧
        (sense = .noLoad → (t.live.arm a).state = .starting ∧ t.live.power.sequence = rest ∧
          t.live.power.waiting = false ∧ t.live.power.begun[a] = true ∧ t.live.power.members = P.members ∧
          ∀ b : Arm, b ≠ a → (t.live.arm b).state = (s.live.arm b).state) ∧
        (sense ≠ .noLoad → (t.live.arm a).state = .failed) ∧
        (FaultRoom 1 s.live →
          (sense ≠ .noLoad → LiveFault .armFailed .station t.live) ∧
          (sense = .noLoad → r.secondFault = true → LiveFault .lineShort (.arm a) t.live))) ∧
    (r.state = .stopping → r.stopWaits = true → run = .next s) ∧
    (r.state ≠ .stopping → r.work ≠ .diagnoseRoot → r.work ≠ .locateRoot → run = .next s) ∧
    (r.state ≠ .stopping → r.work = .diagnoseRoot →
      (sense = .noLoad →
        ∃ t : State, run = .next t ∧ t.setup = s.setup ∧ DiscoveryEnded 1 s.setup a s.live t.live ∧
          ∀ i, 1 ≤ i → i ≤ 16 → (t.live.dock (posAt a i)).link = .absent) ∧
      (sense = .load → opens .nodeDead) ∧ (sense = .overcurrent → opens .lineShort)) ∧
    (r.state ≠ .stopping → r.work = .locateRoot →
      (sense = .noLoad → opens .lineOpen) ∧ (sense = .overcurrent → opens .lineShort) ∧
      (sense = .load →
        ∃ t : State, run = .next t ∧ t.setup = s.setup ∧ (t.live.arm a).work = .locateProbe 0 0 ∧
          (r.state.active = true → r.txn = none → r.repower = [] → (t.live.arm a).txn = some (.locProbe 1))))

/-- The slot a walk waits after a feeding switch was closed: a position that does not answer is PROBING then and the walk's
IDENTIFY goes to it; where it and all positions beyond answer, the walk has passed them and the discovery ends, the arm
RUNNING or in SERVICE as it is held then (the membership: DEDUCED, log 63), ARM CHANGE raised and ARM SHORTFALL tested;
without such a wait nothing changes (DESIGN CHOICE, log 6) (R2, R5, R6, R8, R10, R186). -/
def Obligations.SlotExpiryProbesThePosition : Prop :=
  ∀ (a : Arm) (k : Nat) (s : State), Working s → 1 ≤ k → k ≤ 16 →
    let r := s.live.arm a
    ((∀ n, r.work ≠ .waitSlot n) → exec (.slotExpiry a) s = .next s) ∧
    (r.work = .waitSlot k → (∀ i, k ≤ i → i ≤ 16 → (s.live.dock (posAt a i)).inRotation = true) →
      ∃ t : State, exec (.slotExpiry a) s = .next t ∧ t.setup = s.setup ∧ DiscoveryEnded 1 s.setup a s.live t.live) ∧
    (r.work = .waitSlot k → (s.live.dock (posAt a k)).inRotation = false →
      k = 1 ∨ (s.live.link (posAt a (k - 1))).switch = .closed →
      ∃ t : State, exec (.slotExpiry a) s = .next t ∧ t.setup = s.setup ∧ (t.live.arm a).work = .probe k 0 ∧
        (t.live.dock (posAt a k)).link = .probing ∧
        (r.state.active = true → r.txn = none → r.repower = [] → (t.live.arm a).txn = some (.probe k)))

/-- A position that answers its IDENTIFY, of a walk, a recovery or a localization, is READY with its misses at 0, the switch
and lamp it reports, its kind and serial stored, and its live NODE LOST record cleared with means RECOVERY, before what the
answer itself writes (DESIGN CHOICE, log 74); with another transaction in progress the answer is nothing the arm waits for
and nothing changes (DESIGN CHOICE, log 6). Where an arm stop waited for this transaction, its end brings the changes of the
root opening, the node just identified being a known one (that the stop waits: DEDUCED, log 14). PASS POWER is owed to a
recovered node whose switch is OPEN below a LOST position, and goes before the walk's own message (DESIGN CHOICE, log 20);
the answer to a localization's IDENTIFY ends it, and the discovery it interrupted, with ARM CHANGE raised once for both
(DEDUCED, log 19); a walk whose position was the last that did not answer ends its discovery, the arm RUNNING or in SERVICE
as it is held then (the membership: DEDUCED, log 63), ARM CHANGE raised and ARM SHORTFALL tested. KIOSK EXCESS is opened for
every kiosk made excess, given room in the fault list. Where the answer does not put the arm into SERVICE or take it out:
the resting code due is placed and the lamp due is offered; a first identification takes the latch from the snapshot, with
no counter transition and no arrival, and an OPEN stamp is decided by R92's rows, a return with LATE set showing RETURN OK
(DEDUCED, log 55: the resting code is placed before it), and held where the position has a slot (DEDUCED, log 23), the latch
of a release that it settles elsewhere being removed at an ABSENT position and in a kiosk's record (DEDUCED, log 56); a
known dock's snapshot is compared: an arrival, a departure, both, or a refreshed snapshot, an UNREAD one standing for
another bike (DEDUCED, log 28); an unlatch in flight, also where the position has no kind (DEDUCED, log 27), goes on at
activity WINDOW and is settled at IDLE, a release with HIRE START or its claim dropped, a crew action with its BIKE MOVE,
which is the first record of a departure or of an action settled as TAKEN also where a slot departs (DESIGN CHOICE, log 61)
(an action on an UNREAD bike takes the reported bike as its own: DEDUCED, log 54); a dock that has become a kiosk has its
contents dropped and its bars taken off, its BIKE MOVE being the first record also where the same answer makes a KIOSK
EXCESS, whose FAULT OPENED is numbered after it (DESIGN CHOICE, log 80) (R6, R8, R15–R17, R19, R21, R23, R32, R33, R39–R42,
R45, R60, R79, R84, R92, R144, R162, R168, R173, R186). -/
def Obligations.IdentifyAnswerMakesReady : Prop :=
  (∀ (a : Arm) (k : Nat) (ans : IdentifyAnswer) (s : State), StopWaits a s → 1 ≤ k → k ≤ 16 →
    let r := s.live.arm a
    let opens := fun c : Instr => ∃ t : State, exec c s = .next t ∧ t.setup = s.setup ∧
      RootOpened a (fun p => p = posAt a k ∨ (s.live.dock p).known = true) t.live
    (r.txn = some (.probe k) ∨ r.txn = some (.locProbe k) → opens (.discoveryIdentifyAnswer a ans)) ∧
    (r.txn = some (.recovery k) ∨ r.txn = some (.locProbe k) → opens (.recoveryProbeAnswer a ans))) ∧
  (∀ (a : Arm) (k : Nat) (ans : IdentifyAnswer) (s : State), Working s → 1 ≤ k → k ≤ 16 →
    let ready := fun t : State => t.setup = s.setup ∧ (t.live.dock (posAt a k)).link = .ready ∧
      (t.live.link (posAt a k)).misses = 0 ∧ (t.live.link (posAt a k)).switch = ans.switch
    (((s.live.arm a).state.active = true → (s.live.arm a).txn = some (.probe k) →
      ∃ t : State, exec (.discoveryIdentifyAnswer a ans) s = .next t ∧ ready t) ∧
    ((s.live.arm a).state.active = true → (s.live.arm a).txn = some (.recovery k) →
      ∃ t : State, exec (.recoveryProbeAnswer a ans) s = .next t ∧ ready t)) ∧
    ((∀ n, (s.live.arm a).txn ≠ some (.probe n) ∧ (s.live.arm a).txn ≠ some (.locProbe n)) →
      exec (.discoveryIdentifyAnswer a ans) s = .next s) ∧
    ((∀ n, (s.live.arm a).txn ≠ some (.recovery n) ∧ (s.live.arm a).txn ≠ some (.locProbe n)) →
      exec (.recoveryProbeAnswer a ans) s = .next s)) ∧
  ∀ (a : Arm) (k : Nat) (ans : IdentifyAnswer) (s : State), Working s → 1 ≤ k → k ≤ 16 →
    (s.live.arm a).state.active = true →
    let L := s.live
    let p := posAt a k
    let d := L.dock p
    let r := L.arm a
    let takes := fun P : Live → Prop =>
      (r.txn = some (.probe k) ∨ r.txn = some (.locProbe k) →
        ∃ t : State, exec (.discoveryIdentifyAnswer a ans) s = .next t ∧ t.setup = s.setup ∧ P t.live) ∧
      (r.txn = some (.recovery k) ∨ r.txn = some (.locProbe k) →
        ∃ t : State, exec (.recoveryProbeAnswer a ans) s = .next t ∧ t.setup = s.setup ∧ P t.live)
    (takes fun M => (M.dock p).link = .ready ∧ (M.link p).misses = 0 ∧ (M.link p).switch = ans.switch ∧
      (M.dock p).kind = some (reportedKind ans) ∧ (M.dock p).serial = some ans.serial ∧
      (M.dock p).lamp = some ans.lamp) ∧
    (∀ f ∈ L.faults, f.kind = .nodeLost → f.subject = .position p → f.state ≠ .cleared →
      (∀ x ∈ L.faults, x.number = f.number ∨ (x.kind = .nodeLost ∧ x.subject = .position p ∧ x.state ≠ .cleared) → x = f) →
      takes fun M => ¬ LiveFault .nodeLost (.position p) M ∧
        (f.pending = .none → endRoom L = true →
          L.journal.ring ++
            [{ seq := L.journal.lastIssued + 1, at_ := now L, subject := .position p
               body := .faultCleared f.number .nodeLost f.repeats f.opening.minute f.lastSeen f.barring .recovery }] <+:
            M.journal.ring)) ∧
    (r.txn ≠ some (.probe k) → ans.switch = .opened → k < 16 → (L.dock (posAt a (k + 1))).link = .lost →
      takes fun M => k ∈ (M.arm a).repower ∧ (r.repower = [] → (M.arm a).txn = some (.passPower k))) ∧
    (∀ j tries, r.txn = some (.locProbe k) → r.work = .locateProbe j tries →
      takes (LocalizationEnded 70 s.setup a L)) ∧
    (∀ tries, r.work = .probe k tries → (∀ i, k < i → i ≤ 16 → (L.dock (posAt a i)).inRotation = true) →
      r.txn ≠ some (.locProbe k) → takes (DiscoveryEnded 70 s.setup a L)) ∧
    (FaultRoom 64 L → takes fun M => ∀ q : Pos, Excess q M → ¬ Excess q L → LiveFault .kioskExcess (.position q) M) ∧
    ((r.state = .starting → ¬ HeldAtEnd s.setup a L) → (r.discovery ≠ none → r.state = .running → ¬ HeldNow s.setup a L) →
      (r.discovery ≠ none → r.state = .service → HeldNow s.setup a L) →
      let is := fun (l : Latch) (snap : Option Snapshot) (M : Live) =>
        (M.dock p).latch = some l ∧ (M.dock p).snapshot = snap
      let counted := fun M : Live => M.counter p = if L.counter p < 999999 then L.counter p + 1 else L.counter p
      let arrives := fun (x : Snapshot) (M : Live) =>
        is .held (some x) M ∧ (M.dock p).lastBikeIn = some L.clock.minute ∧ counted M
      let writes := fun (body : JournalBody) (subject : Subject) (M : Live) =>
        ¬ LiveFault .nodeLost (.position p) L →
          L.journal.ring ++ [{ seq := L.journal.lastIssued + 1, at_ := now L, subject := subject, body := body }] <+:
            M.journal.ring
      let moved := fun (reason : MoveReason) (bike : Option BikeId) (M : Live) =>
        endRoom L = true → writes (.bikeMove reason bike 0) (.position p) M
      let givenBack := fun (id : CardId) (M : Live) =>
        M.cards = L.cards.map fun x => if x.card = id then { x with outCount := x.outCount - 1 } else x
      let returned := fun (late : Bool) (t : Tag) (x : Stamp) (M : Live) => Shows p .returnOk M ∧ givenBack x.card M ∧
        ∃ y, (M.dock p).slot = some y ∧ y.bike = t.bike ∧ y.kind = t.kind ∧ y.stamp = x ∧ y.settlement = none ∧
          y.flags.late = late ∧
          (L.clock.valid = true → y.endMinute = some L.clock.minute ∧ y.window = .running ∧
            y.secondsLeft = s.setup.settleWindow ∧
            y.fare = some (fareRequest s.setup x t.kind L.clock.minute y.fill).1) ∧
          (L.clock.valid = false → y.endMinute = none ∧ y.window = .expired ∧ y.fare = none)
      let inSlot := fun (t : Tag) (x : Stamp) =>
        ∃ (q : Pos) (y : Slot), (L.dock q).slot = some y ∧ y.bike = t.bike ∧ y.stamp.start = x.start
      let unchanged := fun M : Live => (M.dock p).slot = d.slot ∧ M.cards = L.cards ∧ M.releases = L.releases
      (takes fun M => (∀ c, RestingDue p c M → (M.dock p).lastResting = some c) ∧
        ∀ l, LampDue p l M → l ≠ ans.lamp → lampPending L p = false → r.queue.length + 4 ≤ 16 → firstWriter L = none →
          OnItsWay { pos := p, command := .lamp l, issuer := .dockTable } M) ∧
      (∀ act snap, ans.report = .dock act snap →
        ((d.kind = none ∧ d.latch ≠ some .uncertain) ∨ (d.kind = some .kiosk ∧ d.latch = none) →
          (takes fun M => is (if snap.isSome then .held else .empty) snap M ∧ (M.dock p).lastBikeIn = none ∧
            M.counter p = L.counter p ∧ (M.dock p).moves = d.moves) ∧
          ((∀ t x, snap = some (.read t) → t.stamp ≠ .opened x) →
            takes fun M => unchanged M ∧ M.closing = L.closing) ∧
          ∀ t x, snap = some (.read t) → t.stamp = .opened x →
            let listed := findClosing L t.bike x.start
            let here := s.setup.station = some x.originStation ∧ x.originPos = p.val
            let out := releaseElsewhere L t.bike x.start p
            (∀ e, listed = some e → takes fun M => unchanged M ∧
              (r.queue.length < 16 → (∀ q : Pos, q ≠ p → (L.dock q).holdsStamp t.bike x.start = false) →
                OnItsWay { pos := p, command := .closeStamp t.bike x.start e.close, issuer := .hireEngine } M)) ∧
            (listed = none → inSlot t x → takes fun M => unchanged M ∧ M.closing = L.closing) ∧
            (listed = none → ¬ inSlot t x →
              (here → takes fun M => (M.dock p).slot = d.slot ∧ givenBack x.card M ∧
                (closingFree L = true →
                  ∃ e ∈ M.closing, e.bike = t.bike ∧ e.start = x.start ∧ e.close = none)) ∧
              (¬ here → ∀ q, out = some q → takes fun M =>
                M.releases = L.releases.filter (fun y => y.pos ≠ q.pos) ∧
                (M.dock q.pos).latch =
                  (if (L.dock q.pos).kind = some .dock ∧ (L.dock q.pos).known = true then some .empty else none) ∧
                writes (.hireStart q.stamp q.bike q.kind q.pos (decide ((L.dock q.pos).latch = some .uncertain)))
                  (.card q.stamp.card) M ∧
                (d.slot = none → returned true t x M) ∧ (d.slot ≠ none → (M.dock p).slot = d.slot)) ∧
              (¬ here → out = none → d.slot = none → takes (returned true t x)) ∧
              (¬ here → out = none → d.slot ≠ none → takes unchanged))) ∧
        (d.kind = some .dock →
          (d.latch = some .empty → snap = none →
            takes fun M => is .empty d.snapshot M ∧ M.counter p = L.counter p ∧ unchanged M) ∧
          (d.latch = some .held → snap = none →
            takes fun M => is .empty none M ∧ moved .unaccounted (d.tag.map (·.bike)) M) ∧
          ∀ x, snap = some x →
            let same := ∃ y z, d.snapshot = some (.read y) ∧ x = .read z ∧ y.bike = z.bike
            (d.latch = some .empty → takes (arrives x)) ∧
            (d.latch = some .empty → ∀ t z, x = .read t → t.stamp = .opened z → findClosing L t.bike z.start = none →
              ¬ inSlot t z → releaseElsewhere L t.bike z.start p = none → d.slot = none →
              takes (returned false t z)) ∧
            (d.latch = some .held → same →
              takes fun M => is .held (some x) M ∧ (M.dock p).lastBikeIn = d.lastBikeIn ∧
                M.counter p = L.counter p ∧ unchanged M) ∧
            (d.latch = some .held → ¬ same →
              takes fun M => arrives x M ∧ moved .unaccounted (d.tag.map (·.bike)) M)) ∧
        (d.latch = some .uncertain ∨ (d.kind = some .dock ∧ (d.latch = some .opened ∨ d.latch = some .unlatching)) →
          (act = .window → takes fun M => is .opened d.snapshot M ∧ M.releases = L.releases ∧ M.crew = L.crew ∧
            (M.dock p).slot = d.slot) ∧
          (act = .idle →
            (∀ q, findRelease L p = some q →
              let ended := fun (result : RemoteResult) (M : Live) =>
                M.releases = L.releases.filter (fun y => y.pos ≠ p) ∧ M.journal.claims = L.journal.claims - 1 ∧
                  (q.remote = true → M.remotes = L.remotes.map fun e =>
                    if e.pos = p ∧ e.ended = none then { e with ended := some (result, L.clock.minute) } else e)
              let gone := fun M : Live => ended (.done true) M ∧
                writes (.hireStart q.stamp q.bike q.kind p true) (.card q.stamp.card) M
              let kept := fun (clears : Prop) (M : Live) => ended .notTaken M ∧ counted M ∧
                (firstWriter L = none → givenBack q.stamp.card M ∧
                  (clears → closingFree L = true →
                    ∃ e ∈ M.closing, e.bike = q.bike ∧ e.start = q.stamp.start))
              (snap = none → takes fun M => is .empty none M ∧ gone M) ∧
              (snap = some .unread → takes fun M => is .held snap M ∧ kept True M) ∧
              ∀ t, snap = some (.read t) →
                (t.bike = q.bike → takes fun M => is .held snap M ∧
                  kept (∃ y, t.stamp = .opened y ∧ y.start = q.stamp.start) M) ∧
                (t.bike ≠ q.bike → takes fun M => arrives (.read t) M ∧ (∀ y ∈ M.releases, y.pos ≠ p) ∧
                  (q.remote = true → ∀ e ∈ L.remotes, e.pos = p → e.ended = none →
                    { e with ended := some (.done true, L.clock.minute) } ∈ M.remotes) ∧
                  writes (.hireStart q.stamp q.bike q.kind p true) (.card q.stamp.card) M)) ∧
            (∀ c, findRelease L p = none → findCrew L p = some c →
              let reason := if c.purpose = .pickup then MoveReason.vanPickup else .crewRemoval
              let gone := fun M : Live => findCrew M p = none ∧ moved reason c.bike M
              (snap = none → takes fun M => is .empty none M ∧ gone M) ∧
              (snap = some .unread → takes fun M => is .held snap M ∧ counted M ∧ findCrew M p = none) ∧
              ∀ t, snap = some (.read t) →
                (c.bike = none ∨ c.bike = some t.bike →
                  takes fun M => is .held snap M ∧ counted M ∧ findCrew M p = none) ∧
                (c.bike ≠ none → c.bike ≠ some t.bike → takes fun M => arrives (.read t) M ∧ gone M))))) ∧
      (ans.report = .kiosk →
        let inFlight := d.latch = some .uncertain ∨ d.latch = some .opened ∨ d.latch = some .unlatching
        (d.kind ≠ some .dock → takes fun M => (M.dock p).latch = d.latch ∧ (M.dock p).snapshot = d.snapshot) ∧
        (d.kind = some .dock → takes fun M =>
          (inFlight → is .uncertain d.snapshot M) ∧
          (¬ inFlight → (M.dock p).latch = none ∧ (M.dock p).snapshot = none) ∧
          (d.latch = some .held → moved .unaccounted (d.tag.map (·.bike)) M) ∧
          (M.dock p).reservation = .none ∧ (M.dock p).lastBikeIn = none ∧ barred M p = false)))

/-- PASS POWER answered by a node: its switch record is CLOSED at CLOSED and OPEN at TRIPPED, its misses are 0, and after
CLOSED a walk that feeds the next position waits one slot. After TRIPPED, where a walk feeds the next position or power is
owed to the recovered node, LINE SHORT is opened for the next position, given room in the fault list, and every position
beyond the node is DARK with a known node and ABSENT without; the discovery that fed it has ended then, the arm RUNNING or
in SERVICE as it is held then (the membership: DEDUCED, log 63), ARM CHANGE raised and ARM SHORTFALL tested, and another
walk goes on: one that feeds from a node beyond sends it nothing more and probes the position it would feed, which is PROBING
then, and a diagnosis or localization at a node beyond is a localization at the highest position that answers, or at the
root (DEDUCED, log 59). Where an arm stop waited for this transaction, its end brings the changes of the root
opening (that the stop waits: DEDUCED, log 14). With no PASS POWER in progress nothing changes (DESIGN CHOICE, log 6) (R2,
R4, R5, R8, R16, R19, R21, R60, R186). -/
def Obligations.PassPowerAnswerSetsTheSwitch : Prop :=
  (∀ (a : Arm) (k : Nat) (ans : PassPowerResult) (s : State), StopWaits a s → (s.live.arm a).txn = some (.passPower k) →
    ∃ t : State, exec (.passPowerAnswer a ans) s = .next t ∧ t.setup = s.setup ∧
      RootOpened a (fun p => (s.live.dock p).known = true) t.live) ∧
  ∀ (a : Arm) (k : Nat) (ans : PassPowerResult) (s : State), Working s → 1 ≤ k → k ≤ 16 →
    let p := posAt a k
    ((s.live.arm a).state.active = true → (s.live.arm a).txn = some (.passPower k) →
      ∃ t : State, exec (.passPowerAnswer a ans) s = .next t ∧ t.setup = s.setup ∧ (t.live.link p).misses = 0 ∧
        (t.live.link p).switch = (if ans = .closed then .closed else .opened) ∧
        (ans = .closed → (s.live.arm a).work = .feed (k + 1) → (t.live.arm a).work = .waitSlot (k + 1)) ∧
        (ans = .tripped → k ≤ 15 → k ∈ (s.live.arm a).repower ∨ (s.live.arm a).work = .feed (k + 1) →
          (FaultRoom 1 s.live → LiveFault .lineShort (.position (posAt a (k + 1))) t.live) ∧
          (let w := (s.live.arm a).work
           let answers := fun i : Nat => (s.live.dock (posAt a i)).inRotation = true
           let alone := (s.live.arm a).repower = [k]
           (∀ n, w = .feed n → k + 1 < n → n ≤ 16 →
             (t.live.arm a).work = .probe n 0 ∧ (t.live.dock (posAt a n)).link = .probing ∧
               (∀ i, k < i → i ≤ 16 → i ≠ n →
                 (t.live.dock (posAt a i)).link = if (s.live.dock (posAt a i)).known then .dark else .absent) ∧
               (alone → (t.live.arm a).txn = some (.probe n))) ∧
           (∀ n, w = .diagnose (n + 1) ∨ w = .locate n → k < n → ∀ j, j ≤ k → (j ≠ 0 → answers j) →
             (∀ i, j < i → i ≤ k → ¬ answers i) →
             (t.live.arm a).work = (if j = 0 then .locateRoot else .locate j) ∧
               (j ≠ 0 → alone → (t.live.arm a).txn = some (.report j))) ∧
           ((∀ n, w = .feed n ∨ w = .diagnose n → n ≤ k + 1) → (∀ n, w = .locate n → n ≤ k) → w ≠ .feed (k + 1) →
             (t.live.arm a).work = w) ∧
           ((∀ n, w = .feed n → n ≤ k + 1) → BeyondIsDark a k s.live t.live) ∧
           (w = .feed (k + 1) → DiscoveryEnded 2 s.setup a s.live t.live) ∧
           (w ≠ .feed (k + 1) → (t.live.arm a).discovery = (s.live.arm a).discovery)))) ∧
    ((∀ n, (s.live.arm a).txn ≠ some (.passPower n)) → exec (.passPowerAnswer a ans) s = .next s)

/-- A diagnosis at a node k that a walk beyond it asked for: with the switch OPEN, or CLOSED without load, the discovery
ends, the arm RUNNING or in SERVICE as it is held then (the membership: DEDUCED, log 63), ARM CHANGE raised and ARM
SHORTFALL tested, and every position beyond k is ABSENT or, after an overcurrent, DARK with a known node and ABSENT without;
CLOSED with load opens NODE DEAD for k+1 and begins the isolation of node k; CLOSED with overcurrent opens LINE SHORT for
k+1 and SWITCH STUCK for k and begins the isolation of the nearest READY or SILENT position below k, or opens the root where
there is none. A report that a localization at k asked for: with the switch OPEN the localization ends, with the discovery
it interrupted and ARM CHANGE raised once for both (DEDUCED, log 19), LINE SHORT opened for k+1 after an overcurrent and
LINE OPEN otherwise, and every position beyond k is DARK with a known node and ABSENT without; CLOSED without load opens
LINE OPEN and begins the isolation of k, with load the IDENTIFY tries at k+1 follow, with overcurrent it goes as in the
diagnosis. The faults are told given room in the fault list. Where an arm stop waited for this transaction, its end brings
the changes of the root opening (that the stop waits: DEDUCED, log 14). The switch record is the one reported (DEDUCED, log
15); with no report asked for nothing changes (DESIGN CHOICE, log 6) (R2, R7, R8, R17–R19, R21, R60, R186). -/
def Obligations.SwitchReportDecidesTheDiagnosis : Prop :=
  (∀ (a : Arm) (k : Nat) (switch : Switch) (sense : Sense) (s : State), StopWaits a s →
    (s.live.arm a).txn = some (.report k) →
    ∃ t : State, exec (.switchReportAnswer a switch sense) s = .next t ∧ t.setup = s.setup ∧
      RootOpened a (fun p => (s.live.dock p).known = true) t.live) ∧
  ∀ (a : Arm) (k : Nat) (switch : Switch) (sense : Sense) (s : State), Working s → 1 ≤ k → k ≤ 15 →
    let run := exec (.switchReportAnswer a switch sense) s
    let below := nearestBelow s.live a k
    let fault := fun (kind : FaultKind) (i : Nat) (t : State) =>
      FaultRoom 2 s.live → LiveFault kind (.position (posAt a i)) t.live
    let after := fun P : State → Prop => ∃ t : State, run = .next t ∧ t.setup = s.setup ∧ P t
    let reported := fun t : State => (t.live.link (posAt a k)).switch = switch
    let stuck := fun (localization : Bool) (t : State) =>
      fault .lineShort (k + 1) t ∧ fault .switchStuck k t ∧
        (below ≠ 0 → (t.live.arm a).work = .isolate below localization ∧
          (t.live.link (posAt a k)).switch = .closed) ∧
        (below = 0 → (t.live.arm a).state = .stopping)
    ((∀ n, (s.live.arm a).txn ≠ some (.report n)) → run = .next s) ∧
    ((s.live.arm a).state.active = true → (s.live.arm a).txn = some (.report k) →
      ((s.live.arm a).work = .diagnose (k + 1) →
        (switch = .opened ∨ sense = .noLoad →
          after fun t => reported t ∧ DiscoveryEnded 2 s.setup a s.live t.live ∧
            (sense ≠ .overcurrent → ∀ i, k < i → i ≤ 16 → (t.live.dock (posAt a i)).link = .absent) ∧
            (sense = .overcurrent → BeyondIsDark a k s.live t.live ∧ fault .lineShort (k + 1) t)) ∧
        (switch = .closed → sense = .load →
          after fun t => (t.live.arm a).work = .isolate k false ∧ (t.live.link (posAt a k)).switch = .closed ∧
            fault .nodeDead (k + 1) t) ∧
        (switch = .closed → sense = .overcurrent → after (stuck false))) ∧
      ((s.live.arm a).work = .locate k →
        (switch = .opened →
          after fun t => reported t ∧ LocalizationEnded 2 s.setup a s.live t.live ∧ BeyondIsDark a k s.live t.live ∧
            fault (if sense = .overcurrent then .lineShort else .lineOpen) (k + 1) t) ∧
        (switch = .closed → sense = .noLoad →
          after fun t => (t.live.arm a).work = .isolate k true ∧ fault .lineOpen (k + 1) t) ∧
        (switch = .closed → sense = .load → after fun t => (t.live.arm a).work = .locateProbe k 0) ∧
        (switch = .closed → sense = .overcurrent → after (stuck true))))

/-- OPEN SWITCH answered by the target of an isolation: OPENED ends the line work with every position beyond it DARK with a
known node and ABSENT without: a discovery's isolation ends the discovery, a localization's the localization and the
discovery it interrupted, the arm RUNNING or in SERVICE as it is held then at the end of a discovery (the membership:
DEDUCED, log 63), ARM CHANGE raised once for both (DEDUCED, log 19) and, at the end of a discovery, ARM SHORTFALL tested;
STUCK opens SWITCH STUCK for the target, given room in the fault list, and moves the target to the nearest READY or SILENT
position below, or opens the root where there is none; with no OPEN SWITCH in progress nothing changes (DESIGN CHOICE, log
6). Where an arm stop waited for this transaction, its end brings the changes of the root opening (that the stop waits:
DEDUCED, log 14). The switch record is the one the answer tells (DEDUCED, log 15) (R2, R8, R17–R19, R21, R60, R186). -/
def Obligations.OpenSwitchAnswerEndsOrMovesTheIsolation : Prop :=
  (∀ (a : Arm) (k : Nat) (ans : OpenSwitchResult) (s : State), StopWaits a s →
    (s.live.arm a).txn = some (.openSwitch k) →
    ∃ t : State, exec (.openSwitchAnswer a ans) s = .next t ∧ t.setup = s.setup ∧
      RootOpened a (fun p => (s.live.dock p).known = true) t.live) ∧
  ∀ (a : Arm) (target : Nat) (localization : Bool) (s : State), Working s → 1 ≤ target → target ≤ 16 →
    let n := nearestBelow s.live a target
    (∀ ans, (∀ i, (s.live.arm a).txn ≠ some (.openSwitch i)) → exec (.openSwitchAnswer a ans) s = .next s) ∧
    ((s.live.arm a).state.active = true → (s.live.arm a).txn = some (.openSwitch target) →
      (s.live.arm a).work = .isolate target localization →
      (∃ t : State, exec (.openSwitchAnswer a .opened) s = .next t ∧ t.setup = s.setup ∧
        (t.live.link (posAt a target)).switch = .opened ∧ BeyondIsDark a target s.live t.live ∧
        (localization = false → DiscoveryEnded 1 s.setup a s.live t.live) ∧
        (localization = true → LocalizationEnded 1 s.setup a s.live t.live)) ∧
      (∃ t : State, exec (.openSwitchAnswer a .stuck) s = .next t ∧ t.setup = s.setup ∧
        (FaultRoom 1 s.live → LiveFault .switchStuck (.position (posAt a target)) t.live) ∧
        (n ≠ 0 → (t.live.arm a).work = .isolate n localization ∧
          (t.live.link (posAt a target)).switch = .closed) ∧
        (n = 0 → (t.live.arm a).state = .stopping)))

/-- A poll, command, PASS POWER or SWITCH REPORT without answer is a miss of its node: before the third the position's
misses rise by one and it is SILENT; a command is kept for resending with its command number, or is sent again at once, and
PASS POWER and SWITCH REPORT are sent again. At the third miss the position is LOST with its recovery timer started and NODE
LOST live, given room in the fault list; its commands have ended and a latch that was OPEN or UNLATCHING is UNCERTAIN. Where
j is the highest other position that answers and j+1 is LOST, or a walk diagnosed beyond the lost node, a localization
begins at j (a known position that the walk was probing below j becomes LOST then and is no second line fault: DEDUCED, log
46); during a localization or isolation a loss below its point or target opens the root, one at the point moves it down, and
one above changes nothing of it. OPEN SWITCH without answer moves the isolation's target at once. Where an arm stop waited
for this transaction, its end brings the changes of the root opening (that the stop waits: DEDUCED, log 14). An arm that
waits for no such answer is left as it is (DESIGN CHOICE, log 6) (R12, R13, R15, R17–R21, R42, R60). -/
def Obligations.AnswerTimeoutCountsAMiss : Prop :=
  (∀ (a : Arm) (k : Nat) (s : State), StopWaits a s →
    let r := s.live.arm a
    (∃ code rep acks, r.txn = some (.poll k code rep acks)) ∨ (∃ sent, r.txn = some (.command sent)) ∨
      r.txn = some (.passPower k) ∨ r.txn = some (.report k) ∨ r.txn = some (.openSwitch k) →
    ∃ t : State, exec (.answerTimeout a) s = .next t ∧ t.setup = s.setup ∧
      RootOpened a (fun p => (s.live.dock p).known = true) t.live) ∧
  ∀ (a : Arm) (s : State), Working s → (s.live.arm a).state.active = true →
    let r := s.live.arm a
    let after := fun P : State → Prop => ∃ t : State, exec (.answerTimeout a) s = .next t ∧ t.setup = s.setup ∧ P t
    let answers := fun i : Nat => (s.live.dock (posAt a i)).inRotation = true
    let misses := fun i : Nat => (s.live.link (posAt a i)).misses
    let awaited := fun k : Nat => (∃ code rep acks, r.txn = some (.poll k code rep acks)) ∨ r.txn = some (.passPower k) ∨
      r.txn = some (.report k) ∨ ∃ sent, r.txn = some (.command sent) ∧ sent.entry.pos = posAt a k
    let line := fun j : Nat => if j = 0 then Work.locateRoot else .locate j
    (∀ k, 1 ≤ k → k ≤ 16 → awaited k → answers k → misses k + 1 < 3 →
      after fun t => (t.live.link (posAt a k)).misses = misses k + 1 ∧ (t.live.dock (posAt a k)).link = .silent ∧
        (t.live.arm a).work = r.work ∧
        (r.txn = some (.passPower k) → r.repower = [k] ∨ (r.repower = [] ∧ r.work = .feed (k + 1)) →
          (t.live.arm a).txn = some (.passPower k)) ∧
        (r.txn = some (.report k) → r.repower = [] → r.work = .diagnose (k + 1) ∨ r.work = .locate k →
          (t.live.arm a).txn = some (.report k))) ∧
    (∀ sent : SentCommand, armOf sent.entry.pos = a → r.txn = some (.command sent) →
      (s.live.link sent.entry.pos).misses + 1 < 3 →
      after fun t => (t.live.arm a).resend = some sent ∨ (t.live.arm a).txn = some (.command sent)) ∧
    (∀ k j, 1 ≤ k → k ≤ 16 → awaited k → answers k → 3 ≤ misses k + 1 → j ≤ 16 → j ≠ k → (j ≠ 0 → answers j) →
      (∀ i, j < i → i ≤ 16 → i ≠ k → ¬ answers i) →
      let p := posAt a k
      let lost := fun (work : Work → Prop) (t : State) =>
        (t.live.dock p).link = .lost ∧ (t.live.link p).recovery = .running ∧
          (FaultRoom 1 s.live → LiveFault .nodeLost (.position p) t.live) ∧
          (∀ e ∈ (t.live.arm a).queue, e.pos ≠ p) ∧ (∀ x, (t.live.arm a).resend = some x → x.entry.pos ≠ p) ∧
          ((s.live.dock p).latch = some .opened ∨ (s.live.dock p).latch = some .unlatching →
            unlatchQueued s.live p = false → (t.live.dock p).latch = some .uncertain) ∧
          work (t.live.arm a).work
      (r.work.localizing = false →
        after (lost fun w =>
          r.work = .diagnose (k + 1) ∨ (j < 16 ∧ (j + 1 = k ∨ (s.live.dock (posAt a (j + 1))).link = .lost)) →
            w = line j)) ∧
      (r.work = .locateRoot → after (lost fun w => w = r.work)) ∧
      (∀ n localization, r.work = .isolate n localization →
        (k < n → after fun t => (t.live.arm a).state = .stopping ∧ (t.live.arm a).secondFault = true) ∧
        (n ≤ k → after (lost fun w => w = r.work))) ∧
      ∀ n tries, r.work = .locate n ∨ r.work = .locateProbe n tries →
        (k < n → after fun t => (t.live.arm a).state = .stopping ∧ (t.live.arm a).secondFault = true) ∧
        (k = n → after (lost fun w => w = line j)) ∧ (n < k → after (lost fun w => w = r.work))) ∧
    (∀ k localization, 1 ≤ k → k ≤ 16 → r.txn = some (.openSwitch k) → r.work = .isolate k localization →
      let below := nearestBelow s.live a k
      after fun t => (answers k → below ≠ 0 → (t.live.link (posAt a k)).misses = misses k + 1) ∧
        (below ≠ 0 → (t.live.arm a).work = .isolate below localization) ∧
        (below = 0 → (t.live.arm a).state = .stopping)) ∧
    (r.txn = none ∨ (∃ k, r.txn = some (.probe k) ∨ r.txn = some (.locProbe k) ∨ r.txn = some (.recovery k)) →
      exec (.answerTimeout a) s = .next s)

/-- An IDENTIFY of a walk without answer is tried again, three times in all. After the third, where a position beyond
answers, the position is LOST with NODE LOST live, given room in the fault list, or ABSENT if no node is known there, and
where all beyond answer the discovery has ended, the arm RUNNING or in SERVICE as it is held then (the membership: DEDUCED,
log 63), ARM CHANGE raised and ARM SHORTFALL tested (R2, R8, R186); where none answers the walk has ended and the diagnosis
follows, at the root or with SWITCH REPORT to the node below, the position being ABSENT, or DARK with a known node (DEDUCED,
log 58). That a position passed as LOST has NODE LOST opened is DEDUCED too (log 17). A localization's IDENTIFY is tried
three times too and then opens NODE DEAD and begins the isolation of its point, or opens the root (R6, R7, R17). Where an
arm stop waited for this transaction, its end brings the changes of the root opening (that the stop waits: DEDUCED, log 14).
A recovery probe without answer restarts the position's recovery timer, and a recovery timer that ends makes its LOST
position's probe due, which waits while the arm has a transaction in progress and is sent at once on an arm with nothing
else to send; for any other position, and with no IDENTIFY in progress, nothing changes (DESIGN CHOICE, log 6) (R10, R16,
R19, R21, R60). -/
def Obligations.IdentifyAndRecoveryTimers : Prop :=
  (∀ (a : Arm) (k : Nat) (s : State), StopWaits a s →
    (s.live.arm a).txn = some (.probe k) ∨ (s.live.arm a).txn = some (.locProbe k) ∨
      (s.live.arm a).txn = some (.recovery k) →
    ∃ t : State, exec (.identifyTimeout a) s = .next t ∧ t.setup = s.setup ∧
      RootOpened a (fun p => (s.live.dock p).known = true) t.live) ∧
  (∀ (a : Arm) (k : Nat) (s : State), Working s → (s.live.arm a).state.active = true → 1 ≤ k → k ≤ 16 →
     let r := s.live.arm a
     let after := fun P : State → Prop => ∃ t : State, exec (.identifyTimeout a) s = .next t ∧ t.setup = s.setup ∧ P t
     let answers := fun i : Nat => (s.live.dock (posAt a i)).inRotation = true
     let known := (s.live.dock (posAt a k)).known
     (∀ tries, r.txn = some (.probe k) → r.work = .probe k tries →
       (tries + 1 < 3 →
         after fun t => (t.live.arm a).work = .probe k (tries + 1) ∧
           (r.repower = [] → (t.live.arm a).txn = some (.probe k))) ∧
       (3 ≤ tries + 1 → (∃ i, k < i ∧ i ≤ 16 ∧ answers i) →
         after fun t => (t.live.dock (posAt a k)).link = (if known then .lost else .absent) ∧
           (known = true → FaultRoom 1 s.live → LiveFault .nodeLost (.position (posAt a k)) t.live) ∧
           ((∀ i, k < i → i ≤ 16 → answers i) → DiscoveryEnded 2 s.setup a s.live t.live)) ∧
       (3 ≤ tries + 1 → (∀ i, k < i → i ≤ 16 → ¬ answers i) → k = 1 ∨ answers (k - 1) →
         after fun t => (t.live.dock (posAt a k)).link = (if known then .dark else .absent) ∧
           (t.live.arm a).work = (if k = 1 then .diagnoseRoot else .diagnose k) ∧
           (k ≠ 1 → r.repower = [] → (t.live.arm a).txn = some (.report (k - 1))))) ∧
     (∀ tries, r.txn = some (.locProbe k) → r.work = .locateProbe (k - 1) tries →
       (tries + 1 < 3 → after fun t => (t.live.arm a).work = .locateProbe (k - 1) (tries + 1)) ∧
       (3 ≤ tries + 1 →
         after fun t => (FaultRoom 1 s.live → LiveFault .nodeDead (.position (posAt a k)) t.live) ∧
           (k ≠ 1 → (t.live.arm a).work = .isolate (k - 1) true) ∧
           (k = 1 → (t.live.arm a).state = .stopping))) ∧
     (r.txn = some (.recovery k) → (s.live.dock (posAt a k)).link = .lost →
       after fun t => (t.live.dock (posAt a k)).link = .lost ∧ (t.live.link (posAt a k)).recovery = .running) ∧
     ((∀ n, r.txn ≠ some (.probe n) ∧ r.txn ≠ some (.locProbe n) ∧ r.txn ≠ some (.recovery n)) →
       exec (.identifyTimeout a) s = .next s)) ∧
  ∀ (p : Pos) (s : State), Working s →
    let r := s.live.arm (armOf p)
    let timed := (s.live.dock p).link = .lost ∧ (s.live.link p).recovery = .running
    let after := fun P : State → Prop => ∃ t : State, exec (.recoveryTimer p) s = .next t ∧ t.setup = s.setup ∧
      (t.live.dock p).link = .lost ∧ P t
    (¬ timed → exec (.recoveryTimer p) s = .next s) ∧
    (timed → r.txn ≠ none → after fun t => (t.live.link p).recovery = .due) ∧
    (timed → r.state.active = true → r.txn = none → r.work = .none → r.repower = [] → r.resend = none →
      (∀ i, 1 ≤ i → i < numOf p → (s.live.link (posAt (armOf p) i)).recovery ≠ .due) →
      after fun t => (t.live.arm (armOf p)).txn = some (.recovery (numOf p)) ∧ (t.live.link p).recovery = .idle)

/-- A node that answers its poll has its misses at 0, its answer number noted, and is READY if it was SILENT; the part's
settings, clock, power state and host port are what they were; with no poll in progress nothing changes (DESIGN CHOICE, log
6) (R13–R15). Where an arm stop waited for this transaction, its end brings the changes of the root opening (that the stop
waits: DEDUCED, log 14), after the answer was taken and its events applied (R19, R21, R60). A SILENT node's answer is taken
as that of the READY node it becomes by it (R15), so what follows holds of it too. The lamp due is offered after the answer
where it is not the node's and none is under way (R32), and a resting code that the poll's message had replaced is pending
again (R45). The events of an answer are taken in order, and once: under the number last taken they change nothing (log 7).
BIKE IN makes an EMPTY latch HELD with its snapshot, minute and counter; in HELD it refreshes the same bike's snapshot, and
any other bike is a departure and an arrival; in UNLATCHING and OPEN it opens READER FAULT. TAKEN ends an unlatch in flight
with EMPTY and its HIRE START in the claim's room, or its crew's BIKE MOVE; in HELD it is a departure, UNACCOUNTED; in EMPTY
nothing. RELATCHED ends it with HELD, the claim dropped and, for a stamp still there, a clearing entry; in EMPTY and HELD
nothing. LATCH JAM, READER FAULT and TAG FAIL open their faults and bar the dock, and the overrun indication and an event of
the other kind of node open READER FAULT; the faults are told given room in the fault list. That BIKE MOVE is the first
record of a departure or of a crew's TAKEN, before the HIRE END of a slot that departs, is a DESIGN CHOICE (log 61) (R14,
R33–R35, R37, R43, R75, R76, R82, R140–R142, R173). -/
def Obligations.PollAnswerResetsTheMisses : Prop :=
  (∀ (a : Arm) (k : Nat) (ans : PollAnswer) (s : State), StopWaits a s → 1 ≤ k → k ≤ 16 →
    (∃ code rep acks, (s.live.arm a).txn = some (.poll k code rep acks)) →
    let p := posAt a k
    ∃ t : State, exec (.pollAnswer a ans) s = .next t ∧ t.setup = s.setup ∧ (t.live.link p).misses = 0 ∧
      (t.live.link p).lastAnswer = some ans.number ∧ RootOpened a (fun q => (s.live.dock q).known = true) t.live ∧
      ∀ snap, ans.events = [.bikeIn snap] → (s.live.link p).lastAnswer ≠ some ans.number →
        (s.live.dock p).kind = some .dock → (s.live.dock p).known = true → (s.live.dock p).latch = some .empty →
        (s.live.arm a).queue = [] → (s.live.arm a).resend = none →
        (t.live.dock p).latch = some .held ∧ (t.live.dock p).snapshot = some snap) ∧
  (∀ (a : Arm) (ans : PollAnswer) (s : State), Working s →
    (∀ k code rep acks, 1 ≤ k → k ≤ 16 → (s.live.arm a).state.active = true →
      (s.live.arm a).txn = some (.poll k code rep acks) →
      ∃ t : State, exec (.pollAnswer a ans) s = .next t ∧ t.setup = s.setup ∧ t.live.clock = s.live.clock ∧
        t.live.power.state = s.live.power.state ∧ t.live.port = s.live.port ∧
        (t.live.link (posAt a k)).misses = 0 ∧ (t.live.link (posAt a k)).lastAnswer = some ans.number ∧
        (t.live.dock (posAt a k)).link =
          (if (s.live.dock (posAt a k)).link = .silent then .ready else (s.live.dock (posAt a k)).link)) ∧
    (∀ k code rep acks, 1 ≤ k → k ≤ 16 → (s.live.arm a).state.active = true →
      (s.live.arm a).txn = some (.poll k code rep acks) → (s.live.dock (posAt a k)).link = .silent →
      ∃ M : Live, MadeReady (posAt a k) s.live M ∧
        exec (.pollAnswer a ans) s = exec (.pollAnswer a ans) { s with live := M }) ∧
    ((∀ k code rep acks, (s.live.arm a).txn ≠ some (.poll k code rep acks)) → exec (.pollAnswer a ans) s = .next s)) ∧
  ∀ (a : Arm) (k : Nat) (s : State), Polling a k s →
    let L := s.live
    let p := posAt a k
    let d := L.dock p
    let isDock := d.kind = some .dock
    let inFlight := d.latch = some .opened ∨ d.latch = some .unlatching
    let is := fun (l : Latch) (snap : Option Snapshot) (M : Live) =>
      (M.dock p).latch = some l ∧ (M.dock p).snapshot = snap
    let counted := fun M : Live => M.counter p = if L.counter p < 999999 then L.counter p + 1 else L.counter p
    let untouched := fun M : Live => (M.dock p).latch = d.latch ∧ (M.dock p).snapshot = d.snapshot ∧
      M.counter p = L.counter p ∧ M.journal = L.journal
    let moved := fun (reason : MoveReason) (M : Live) => endRoom L = true →
      L.journal.ring ++
        [{ seq := L.journal.lastIssued + 1, at_ := now L, subject := .position p
           body := .bikeMove reason (d.tag.map (·.bike)) 0 }] <+: M.journal.ring
    let ended := fun (r : Release) (result : RemoteResult) (M : Live) =>
      M.releases = L.releases.filter (fun x => x.pos ≠ p) ∧
        (r.remote = true → M.remotes = L.remotes.map fun e =>
          if e.pos = p ∧ e.ended = none then { e with ended := some (result, L.clock.minute) } else e)
    let opens := fun (kind : FaultKind) (M : Live) =>
      FaultRoom 1 L → LiveFault kind (.position p) M ∧ (isDock → barred M p = true)
    (∀ ans : PollAnswer, (L.link p).lastAnswer = some ans.number →
      ∃ t : State, exec (.pollAnswer a ans) s = .next t ∧ untouched t.live ∧ t.live.faults = L.faults ∧
        t.live.cards = L.cards ∧ t.live.queries = L.queries ∧ t.live.releases = L.releases ∧ t.live.crew = L.crew ∧
        t.live.visit = L.visit ∧ (t.live.dock p).slot = d.slot) ∧
    (∀ n, (L.link p).lastAnswer ≠ some n →
      ∃ t : State, exec (.pollAnswer a { number := n, events := [], overrun := true }) s = .next t ∧
        opens .readerFault t.live) ∧
    (∀ l, LampDue p l L → lampPending L p = false → (∀ e ∈ L.closing, e.retry ≠ some p) →
      (d.lamp ≠ some l → (L.arm a).queue.length < 16 →
        Reports a k [] s (OnItsWay { pos := p, command := .lamp l, issuer := .dockTable })) ∧
      (d.lamp = some l → Reports a k [] s fun M => lampPending M p = false)) ∧
    (∀ code c acks, (L.arm a).txn = some (.poll k code (some c) acks) → d.code = none →
      Reports a k [] s fun M => Rests p c M ∧ (M.dock p).lastResting = some c) ∧
    (d.kind = some .kiosk → ∀ e : NodeEvent, (∀ c plan hold validity session, e ≠ .passHeld c plan hold validity session) →
      Reports a k [e] s (opens .readerFault)) ∧
    (isDock →
      (∀ snap : Snapshot,
        let same := ∃ x y, d.snapshot = some (.read x) ∧ snap = .read y ∧ x.bike = y.bike
        let arrives := fun M : Live => is .held (some snap) M ∧ (M.dock p).lastBikeIn = some L.clock.minute ∧ counted M
        (d.latch = some .empty → Reports a k [.bikeIn snap] s arrives) ∧
        (d.latch = some .held → ¬ same → Reports a k [.bikeIn snap] s fun M => arrives M ∧ moved .unaccounted M) ∧
        (d.latch = some .held → same →
          Reports a k [.bikeIn snap] s fun M => is .held (some snap) M ∧ (M.dock p).lastBikeIn = d.lastBikeIn ∧
            M.counter p = L.counter p ∧ M.journal = L.journal) ∧
        (inFlight → unlatchQueued L p = false →
          Reports a k [.bikeIn snap] s fun M => is (d.latch.getD .opened) d.snapshot M ∧ opens .readerFault M) ∧
        (d.latch = some .opened → Reports a k [.taken, .bikeIn snap] s (is .held (some snap))) ∧
        (d.latch = some .empty → Reports a k [.bikeIn snap, .taken] s (is .empty none)) ∧
        (d.latch = some .empty ∨ d.latch = some .held → Reports a k [.relatched snap] s untouched) ∧
        (inFlight → Reports a k [.relatched snap] s fun M => is .held (some snap) M ∧ counted M) ∧
        (∀ r, inFlight → findRelease L p = some r →
          Reports a k [.relatched snap] s fun M => ended r .notTaken M ∧
            (firstWriter L = none → (∀ v, applying s.setup p = some v → L.counter p + 1 ≠ v) →
              M.journal = { L.journal with claims := L.journal.claims - 1 } ∧
              (∀ x y, snap = .read x → x.bike = r.bike → x.stamp = .opened y → y.start = r.stamp.start →
                closingFree L = true → ∃ e ∈ M.closing, e.bike = r.bike ∧ e.start = r.stamp.start))) ∧
        (∀ c, inFlight → findRelease L p = none → findCrew L p = some c →
          Reports a k [.relatched snap] s fun M => findCrew M p = none ∧
            ((∀ v, applying s.setup p = some v → L.counter p + 1 ≠ v) → M.journal = L.journal))) ∧
      (d.latch = some .empty → Reports a k [.taken] s untouched) ∧
      (d.latch = some .held → Reports a k [.taken] s fun M => is .empty none M ∧ moved .unaccounted M) ∧
      (inFlight → Reports a k [.taken] s fun M => is .empty none M ∧ (M.dock p).lastBikeIn = none) ∧
      (∀ r, inFlight → findRelease L p = some r →
        Reports a k [.taken] s fun M => ended r (.done false) M ∧
          M.journal =
            { ring := L.journal.ring ++
                [{ seq := L.journal.lastIssued + 1, at_ := now L, subject := .card r.stamp.card
                   body := .hireStart r.stamp r.bike r.kind p false }]
              lastIssued := L.journal.lastIssued + 1, claims := L.journal.claims - 1 }) ∧
      (∀ c, inFlight → findRelease L p = none → findCrew L p = some c →
        Reports a k [.taken] s fun M => findCrew M p = none ∧
          moved (if c.purpose = .pickup then .vanPickup else .crewRemoval) M) ∧
      Reports a k [.latchJam] s (opens .latchJam) ∧ Reports a k [.readerFault] s (opens .readerFault) ∧
      Reports a k [.tagFail] s (opens .tagFault) ∧
      ∀ c plan hold validity session, Reports a k [.passHeld c plan hold validity session] s (opens .readerFault))

/-- LAMP answered DONE writes the lamp field; a rider's UNLATCH answered ACCEPTED makes the latch OPEN and shows RELEASED;
an answer the command in progress does not have changes nothing (log 8). Where an arm stop waited for this transaction, its
end brings the changes of the root opening (that the stop waits: DEDUCED, log 14). A SILENT node's answer is taken as that
of the READY node it becomes by it (R15), so what follows holds of it too. UNLATCH answered TAG FAIL or JAMMED leaves the
latch HELD, ends the rider's release with its card given back and its claim dropped, told where nothing waits for the
journal, and opens TAG FAULT or LATCH JAM; TAG FAIL shows BIKE FAULTY, and the bar that a fault newly sets places the
resting code due; a remote release's entry ends REFUSED with BIKE FAULTY or DOCK OUT OF SERVICE (R82). A crew's UNLATCH is
OPEN at ACCEPTED with CREW OK shown and its action kept, and HELD at JAMMED with its action ended, LATCH JAM opened and the
resting code due placed. CLOSE STAMP answered DONE writes the new stamp state into the snapshot and its entry leaves the
closing list, shown where no slot waits for the list; NO MATCH makes the entry AWAY; TAG FAIL counts a try, and the third
stops the entry and opens TAG FAULT. MARK FAULT answered DONE adds the mark and gives up a pickup, and changes no snapshot
otherwise. PASS ANSWER answered DONE changes no card, dock or record (R12, R19, R21, R29–R32, R43, R60, R65, R74, R91, R139,
R149). -/
def Obligations.CommandAnswersReachTheDock : Prop :=
  (∀ (a : Arm) (sent : SentCommand) (ans : CommandAnswer) (s : State), StopWaits a s →
    (s.live.arm a).txn = some (.command sent) → answers sent.entry.command ans = true →
    ∃ t : State, exec (.commandAnswer a ans) s = .next t ∧ t.setup = s.setup ∧
      RootOpened a (fun p => (s.live.dock p).known = true) t.live) ∧
  ∀ (a : Arm) (sent : SentCommand) (s : State), Working s → (s.live.arm a).state.active = true →
    (s.live.arm a).txn = some (.command sent) →
    let L := s.live
    let p := sent.entry.pos
    let d := L.dock p
    let answered := fun (ans : CommandAnswer) (P : Live → Prop) =>
      ∃ t : State, exec (.commandAnswer a ans) s = .next t ∧ t.setup = s.setup ∧ P t.live
    (∀ setting, sent.entry.command = .lamp setting → answered .done fun M => (M.dock p).lamp = some setting) ∧
    (∀ stamp window, sent.entry.command = .unlatch stamp window → (∃ r, findRelease L p = some r) → d.link = .ready →
      answered .accepted fun M => (M.dock p).latch = some .opened ∧ Shows p .released M) ∧
    (∀ ans, answers sent.entry.command ans = false → exec (.commandAnswer a ans) s = .next s) ∧
    (∀ ans, answers sent.entry.command ans = true → d.link = .silent →
      ∃ M : Live, MadeReady p L M ∧ exec (.commandAnswer a ans) s = exec (.commandAnswer a ans) { s with live := M }) ∧
    (d.link = .ready →
      (∀ stamp window, sent.entry.command = .unlatch stamp window →
        let bars := fun (kind : FaultKind) (M : Live) => FaultRoom 1 L → LiveFault kind (.position p) M ∧
          (d.kind = some .dock → barred L p = false → ∀ c, RestingDue p c M → (M.dock p).lastResting = some c)
        (∀ r, findRelease L p = some r → firstWriter L = none →
          let fails := fun (kind : FaultKind) (reason : DisplayCode) (M : Live) =>
            (M.dock p).latch = some .held ∧ M.releases = L.releases.filter (fun x => x.pos ≠ p) ∧
              GivenBack r.stamp.card L M ∧ M.journal.claims = L.journal.claims - 1 ∧
              RemoteEnded r (.refused reason) L M ∧ bars kind M
          (stamp ≠ none → answered .tagFail fun M => fails .tagFault .bikeFaulty M ∧ Shows p .bikeFaulty M) ∧
          answered .jammed (fails .latchJam .dockOutOfService)) ∧
        (findRelease L p = none → findCrew L p ≠ none →
          (answered .accepted fun M => (M.dock p).latch = some .opened ∧ M.crew = L.crew ∧ Shows p .crewOk M) ∧
          answered .jammed fun M => (M.dock p).latch = some .held ∧ findCrew M p = none ∧ bars .latchJam M)) ∧
      (∀ b start close, sent.entry.command = .closeStamp b start close →
        (answered .done fun M =>
          (∀ x y, d.snapshot = some (.read x) → x.bike = b → x.stamp = .opened y → y.start = start →
            (M.dock p).snapshot = some (.read { x with stamp := match close with
              | some m => .closed y m
              | none => .none })) ∧
          ((∀ (q : Pos) (x : Slot), (L.dock q).slot = some x → x.window ≠ .deferredList) → findClosing M b start = none)) ∧
        ∀ e, findClosing L b start = some e →
          (answered .noMatch fun M => findClosing M b start = some { e with state := .away, retry := none }) ∧
          answered .tagFail fun M =>
            (e.tries + 1 < 3 → ∃ f, findClosing M b start = some f ∧ f.tries = e.tries + 1 ∧ f.close = e.close) ∧
            (3 ≤ e.tries + 1 → findClosing M b start = some { e with tries := 3, state := .stopped, retry := none } ∧
              (FaultRoom 1 L → LiveFault .tagFault (.position p) M))) ∧
      (∀ b minute station, sent.entry.command = .markFault b minute station →
        (∀ ans, ans = .noMatch ∨ ans = .tagFail →
          answered ans fun M => ∀ q : Pos, (M.dock q).snapshot = (L.dock q).snapshot) ∧
        answered .done fun M => ∀ x, d.snapshot = some (.read x) → x.bike = b →
          (M.dock p).snapshot = some (.read { x with mark := some { minute := minute, station := station } }) ∧
            (M.dock p).reservation = (if d.reservation = .vanPickup then .none else d.reservation)) ∧
      (∀ c reply, sent.entry.command = .passAnswer c reply →
        answered .done fun M => M.cards = L.cards ∧ M.journal = L.journal ∧ M.faults = L.faults ∧
          ∀ q : Pos, ({ M.dock q with code := (L.dock q).code, replaced := (L.dock q).replaced } : DockRec) = L.dock q))

/-- An idle arm is handed the first that is due of R10's list: power owed to a recovered node (log 20) or the next message
of its line work, a command that awaits resending, the recovery probe of the lowest LOST position whose time has come, while
no localization goes on, the oldest queued command with the next command number, the poll of the next position in rotation
with its display code and the number of the last answer taken from the node, or none (R14); with nothing due it stays idle.
That a STARTING arm is handed recovery probes too is DEDUCED (log 52), and that owed power goes before the walk's message a
DESIGN CHOICE (log 20). Handing out leaves everything but the arms' transactions, queues, command numbers and poll pointers,
recovery timers that go idle, and display codes that leave with a poll; and an arm that is OFF, STOPPING or FAILED, or has a
transaction in progress, is handed nothing (R2, R10, R12–R14, R16). -/
def Obligations.HandOutTouchesOnlyTheLines : Prop :=
  ∀ L : Live,
    ({ pump L with arms := L.arms, links := L.links, docks := L.docks } : Live) = L ∧
    (∀ p : Pos,
      ({ (pump L).dock p with code := (L.dock p).code, replaced := (L.dock p).replaced } : DockRec) = L.dock p ∧
      ({ (pump L).link p with recovery := (L.link p).recovery } : LinkRec) = L.link p ∧
      ((pump L).link p = L.link p ∨ (L.link p).recovery = .due)) ∧
    (∀ a : Arm,
      ({ (pump L).arm a with
          queue := (L.arm a).queue, txn := (L.arm a).txn, resend := (L.arm a).resend
          nextNumber := (L.arm a).nextNumber, pollPointer := (L.arm a).pollPointer } : ArmRec) = L.arm a ∧
      ((L.arm a).state.active = false ∨ (L.arm a).txn ≠ none → (pump L).arm a = L.arm a)) ∧
    ∀ a : Arm, (L.arm a).state.active = true → (L.arm a).txn = none →
      let r := L.arm a
      let u := (pump L).arm a
      let line : Option Txn := match r.repower, r.work with
        | k :: _, _ => some (.passPower k)
        | [], .feed k => some (.passPower (k - 1))
        | [], .probe k _ => some (.probe k)
        | [], .diagnose k => some (.report (k - 1))
        | [], .locate j => some (.report j)
        | [], .locateProbe j _ => some (.locProbe (j + 1))
        | [], .isolate t _ => some (.openSwitch t)
        | [], _ => none
      let due := fun k : Nat => 1 ≤ k ∧ k ≤ 16 ∧ r.work.localizing = false ∧ (L.dock (posAt a k)).link = .lost ∧
        (L.link (posAt a k)).recovery = .due
      let answers := fun k : Nat => 1 ≤ k ∧ k ≤ 16 ∧ (L.dock (posAt a k)).inRotation = true
      let above := fun k : Nat => ∃ q, r.pollPointer = some q ∧ q < k
      let turn := fun k : Nat => answers k ∧
        ((above k ∧ ∀ i, answers i → above i → k ≤ i) ∨ ((∀ i, answers i → ¬ above i) ∧ ∀ i, answers i → k ≤ i))
      (∀ x, line = some x → u = { r with txn := some x }) ∧
      (line = none → ∀ x, r.resend = some x → u = { r with txn := some (.command x), resend := none }) ∧
      (line = none → r.resend = none →
        (∀ k, due k → (∀ i, due i → k ≤ i) →
          u = { r with txn := some (.recovery k) } ∧ ((pump L).link (posAt a k)).recovery = .idle) ∧
        ((∀ k, ¬ due k) →
          (∀ e rest, r.queue = e :: rest →
            u = { r with queue := rest, txn := some (.command { entry := e, number := r.nextNumber })
                         nextNumber := r.nextNumber + 1 }) ∧
          (r.queue = [] → ∀ k, turn k →
            let d := L.dock (posAt a k)
            u = { r with txn := some (.poll k d.code d.replaced (L.link (posAt a k)).lastAnswer)
                         pollPointer := some k } ∧
              ((pump L).dock (posAt a k)).code = none) ∧
          (r.queue = [] → (∀ k, ¬ answers k) → u = r)))

/-! ## Cards, docks and releases (chapters 2, 3 and 4) -/

/-- CARD PUT with a field out of its range is refused RANGE, a new card on a full list FULL, a card whose closure waits IN
USE, and nothing changes. Otherwise the record of the card holds what R51's table gives, every other card's record is what
it was, the entry that waits for the card leaves and nothing else changes but what idle arms hand out, except that a tap
which waited at a READY dock is decided there against the new record. CARD DROP is refused NOT FOUND or IN USE with nothing
changed, replies DONE to a pass whose closure waits, removes a MEMBER or CREW record, and closes a PASS with reason DROPPED,
its PASS CLOSED written or waiting. PASS HELD from a kiosk is answered to it with PASS ANSWER: PASS OK to a repeat, which
changes no card and no record, the refusal of the first check of R63 that fails, which changes none either, and otherwise
PASS OK with the pass in the list and PASS ISSUED written (R50–R52, R58, R63–R65, R67). -/
def Obligations.CardPutAndDropChangeOneCard : Prop :=
  (∀ s : State, Taking s →
    let L := s.live
    let only := fun (cards : List CardRec) (id : CardId) (r : Option CardRec) =>
      findCard cards id = r ∧ ∀ other, other ≠ id → findCard cards other = findCard L.cards other
    (∀ f : CardPut,
      let run := exec (.cardPut f) s
      let old := findCard L.cards f.card
      let good := f.plan ≤ 7 ∧ 1 ≤ f.allowance ∧ f.allowance ≤ 4 ∧
        (f.role = .pass → f.expiry ≠ none ∧ f.holdIssued ≠ none)
      let full := old = none ∧ 4096 ≤ L.cards.length
      let closing := ∃ r k, old = some r ∧ r.closure = some k
      (¬ good → run = .next (setInHand 16 0 (plain .range) s)) ∧
      (good → full → run = .next (setInHand 16 0 (plain .full) s)) ∧
      (good → closing → run = .next (setInHand 16 0 (plain .inUse) s)) ∧
      (good → ¬ full → ¬ closing →
        ∃ (cards : List CardRec) (r : CardRec),
          let M := { L with cards := cards, queries := L.queries.filter fun q => q.card ≠ f.card }
          ((∀ q, findQuery L f.card = some q → (L.dock q.pos).link ≠ .ready) →
            run = .next (setInHand 16 0 (done []) { s with live := pump M })) ∧
          (∀ q, findQuery L f.card = some q → (L.dock q.pos).link = .ready →
            run = .next (setInHand 16 0 (done []) { s with live := pump (tap s.setup q.pos f.card M) })) ∧
          only cards f.card (some r) ∧ r.role = f.role ∧ r.plan.val = f.plan ∧ r.allowance = f.allowance ∧
          r.status = f.status ∧ r.expiry = f.expiry ∧ r.closure = none ∧
          r.outCount = min (f.outCount.getD ((old.map (·.outCount)).getD 0)) f.allowance ∧
          (f.role = .pass →
            let kept := (old.filter fun x => x.role = .pass).map fun x => x.holdRemaining
            r.holdIssued = f.holdIssued.getD 0 ∧
              r.holdRemaining = min (f.holdRemaining.getD (kept.getD r.holdIssued)) r.holdIssued) ∧
          (∀ x, old = some x → x.role = .pass → f.role = .pass → r.source = x.source) ∧
          (∀ x, old = some x → x.role ≠ .pass → r.source = .link) ∧
          (old = none ∨ f.role ≠ .pass → r.source = .link))) ∧
    ∀ id : CardId,
      let run := exec (.cardDrop id) s
      (findCard L.cards id = none → run = .next (setInHand 17 0 (plain .notFound) s)) ∧
      ∀ r : CardRec, findCard L.cards id = some r →
        (0 < r.outCount → run = .next (setInHand 17 0 (plain .inUse) s)) ∧
        (r.outCount = 0 → r.closure ≠ none → run = .next (setInHand 17 0 (done []) s)) ∧
        (r.outCount = 0 → r.closure = none → r.role ≠ .pass →
          ∃ cards, run = .next (setInHand 17 0 (done []) { s with live := { L with cards := cards } }) ∧
            only cards id none) ∧
        (r.outCount = 0 → r.closure = none → r.role = .pass → endRoom L = true →
          ∃ (cards : List CardRec) (v : Vector EventFlag 9),
            run =
              .next (setInHand 17 0 (done [])
                { s with live :=
                  { L with
                    cards := cards
                    journal := { L.journal with
                      lastIssued := L.journal.lastIssued + 1
                      ring := L.journal.ring ++
                        [{ seq := L.journal.lastIssued + 1, at_ := now L, subject := .card id
                           body := .passClosed r.holdIssued r.holdRemaining .dropped r.source }] }
                    attention := v } }) ∧
            only cards id none ∧ v[EventKind.journalNew.idx].pending = true) ∧
        (r.outCount = 0 → r.closure = none → r.role = .pass → endRoom L = false →
          ∃ cards, run = .next (setInHand 17 0 (done []) { s with live := { L with cards := cards } }) ∧
            only cards id (some { r with closure := some { reason := .dropped, asked := now L } }))) ∧
  ∀ (a : Arm) (k : Nat) (s : State), Polling a k s →
    let L := s.live
    let p := posAt a k
    (L.dock p).kind = some .kiosk → ∀ (id : CardId) (plan : PlanClass) (hold : Money) (validity session : Nat),
      let old := findCard L.cards id
      let isRepeat := ∃ r, old = some r ∧ r.role = .pass ∧ r.source = .kiosk p session
      let closed := L.power.state ≠ .run ∨ L.clock.valid = false
      let reports := Reports a k [.passHeld id plan hold validity session] s
      let answered := fun (reply : PassReply) (M : Live) => (L.arm a).queue.length < 16 →
        OnItsWay { pos := p, command := .passAnswer id reply, issuer := .cardUnit } M
      let keeps := fun (reply : PassReply) (M : Live) => answered reply M ∧ M.cards = L.cards ∧ M.journal = L.journal
      (isRepeat → reports (keeps .passOk)) ∧
      (¬ isRepeat →
        (closed → reports (keeps .stationClosed)) ∧
        (¬ closed → L.journal.room < 33 → reports (keeps .stationBusy)) ∧
        (¬ closed → 33 ≤ L.journal.room →
          (4096 ≤ L.cards.length → reports (keeps .cardListFull)) ∧
          (L.cards.length < 4096 → old ≠ none → reports (keeps .duplicate)) ∧
          (L.cards.length < 4096 → old = none →
            (excess L p = true → reports (keeps .kioskExcess)) ∧
            (excess L p = false → findQuery L id = none →
              let minutes := if validity < 60 then 60 else if 10080 < validity then 10080 else validity
              let expiry := min 4294967295 (L.clock.minute + minutes)
              reports fun M => answered .passOk M ∧
                findCard M.cards id =
                  some { card := id, role := .pass, plan := plan, allowance := 1, outCount := 0, status := .good
                         expiry := some expiry, holdIssued := hold, holdRemaining := hold, source := .kiosk p session
                         closure := none } ∧
                (∀ other, other ≠ id → findCard M.cards other = findCard L.cards other) ∧
                M.journal =
                  { L.journal with
                    lastIssued := L.journal.lastIssued + 1
                    ring := L.journal.ring ++
                      [{ seq := L.journal.lastIssued + 1, at_ := now L, subject := .card id
                         body := .passIssued plan hold expiry p session }] }))))

/-- SHOW ALL places its code as a message at every READY position and nowhere else, and a number that is no display code
is refused RANGE. CARD UNKNOWN and the expiry of a query's timer take the card's entry out of the query table and place
CARD UNKNOWN as a message at its position; with no entry CARD UNKNOWN is refused NOT FOUND and the expiry finds nothing.
A message over a message forgets the resting code the first had replaced (DEDUCED, log 22). A rider's tap at a dock is
refused by the first check of R71 that fails, with the code of that check shown and no card, claim or release changed: a
card without a record starts a query where the table has room, shown WAIT, as a card whose query waits is (R24, R44, R45,
R55, R57–R59, R70, R71; log 29 has BIKE FAULTY before WAIT). -/
def Obligations.MessagesArePlacedAtDocks : Prop :=
  (∀ s : State,
    let L := s.live
    let shown := fun (c : DisplayCode) (d : DockRec) =>
      { d with
        code := some (c, .message)
        replaced := match d.code with
          | some (r, .resting) => some r
          | _ => none }
    let refusedTap := fun (q : QueryRec) (docks : Vector DockRec 64) =>
      { L with queries := L.queries.filter (fun x => x.card ≠ q.card), docks := docks }
    let shownAt := fun (at_ : Pos) (docks : Vector DockRec 64) =>
      ∀ p : Pos, docks[p] = if p = at_ then shown .cardUnknown (L.dock p) else L.dock p
    (Taking s →
      (∀ n, n = 0 ∨ 17 < n → exec (.showAll n) s = .next (setInHand 14 0 (plain .range) s)) ∧
      (∀ c : DisplayCode, ∃ docks : Vector DockRec 64,
        exec (.showAll c.num) s = .next (setInHand 14 0 (done []) { s with live := { L with docks := docks } }) ∧
        ∀ p : Pos, docks[p] = if (L.dock p).link = .ready then shown c (L.dock p) else L.dock p) ∧
      (∀ id, findQuery L id = none → exec (.cardUnknown id) s = .next (setInHand 20 0 (plain .notFound) s)) ∧
      (∀ id q, findQuery L id = some q → ∃ docks : Vector DockRec 64,
        exec (.cardUnknown id) s = .next (setInHand 20 0 (done []) { s with live := refusedTap q docks }) ∧
        shownAt q.pos docks)) ∧
    (Working s →
      (∀ id, findQuery L id = none → exec (.queryTimeout id) s = .next s) ∧
      (∀ id q, findQuery L id = some q → ∃ docks : Vector DockRec 64,
        exec (.queryTimeout id) s = .next { s with live := refusedTap q docks } ∧ shownAt q.pos docks))) ∧
  ∀ (a : Arm) (k : Nat) (s : State), Polling a k s →
    let L := s.live
    let p := posAt a k
    let d := L.dock p
    let r := L.arm a
    d.kind = some .dock → ∀ id : CardId, (∀ x, findCard L.cards id = some x → x.role ≠ .crew) →
      let refused := fun (c : DisplayCode) (queries : List QueryRec) =>
        Reports a k [.tap id] s fun M => Shows p c M ∧ M.queries = queries ∧ M.cards = L.cards ∧
          M.journal = L.journal ∧ M.releases = L.releases
      let closed := ¬((L.power.state = .run ∨ L.power.state = .quiet) ∧ L.clock.valid = true) ∨ r.state = .starting
      let outOfService := r.state = .service ∨ barred L p = true
      let noBike := d.latch ≠ some .held ∨ d.snapshot = none
      let faulty := ∀ t, d.snapshot = some (.read t) →
        (∃ x, t.stamp = .opened x) ∨ marked L t = true ∨ d.slot ≠ none
      let early := ∃ t x m, d.snapshot = some (.read t) ∧ t.stamp = .closed x m ∧ L.clock.minute ≤ x.start
      (d.latch = some .opened ∨ d.latch = some .unlatching → refused .wait L.queries) ∧
      (d.latch = some .empty ∨ d.latch = some .held →
        (closed → refused .stationClosed L.queries) ∧
        (¬ closed → outOfService → refused .dockOutOfService L.queries) ∧
        (¬ closed → ¬ outOfService →
          (noBike → refused .noBike L.queries) ∧
          (¬ noBike → d.reservation ≠ .none → refused .bikeReserved L.queries) ∧
          (¬ noBike → d.reservation = .none →
            (faulty → refused .bikeFaulty L.queries) ∧
            (¬ faulty → early → refused .wait L.queries) ∧
            (¬ faulty → ¬ early →
              (findCard L.cards id = none →
                (findQuery L id ≠ none → refused .wait L.queries) ∧
                (findQuery L id = none → L.queries.length < 8 →
                  refused .wait (L.queries ++
                    [{ card := id, pos := p, minute := L.clock.minute, second := L.clock.second
                       secondsLeft := s.setup.queryTimeout }])) ∧
                (findQuery L id = none → 8 ≤ L.queries.length → refused .cardUnknown L.queries)) ∧
              ∀ x, findCard L.cards id = some x →
                let expired := (∃ e, x.expiry = some e ∧ e ≤ L.clock.minute) ∨ (x.role = .pass ∧ x.closure ≠ none)
                let low := x.role = .pass ∧ x.holdRemaining < (s.setup.current.plan x.plan).M
                (x.status = .blocked → refused .cardBlocked L.queries) ∧
                (x.status = .good → expired → refused .cardExpired L.queries) ∧
                (x.status = .good → ¬ expired →
                  (x.allowance ≤ x.outCount → refused .limitReached L.queries) ∧
                  (x.outCount < x.allowance →
                    (low → refused .lowBalance L.queries) ∧
                    (¬ low → L.journal.room < 33 ∨ 16 ≤ r.queue.length → refused .stationBusy L.queries)))))))

/-- DOCK RESOLVE. Outside A01 to D16 every outcome is refused RANGE. TAKEN and KEPT where nothing is UNCERTAIN are refused
NOT UNCERTAIN; a release settled as TAKEN writes its HIRE START with LATE set in its claim's room and empties the latch; one
settled as KEPT leaves the bike HELD and drops the claim, shown here where no record waits for the journal and no preset
applies to the position, counts the latch cycle, up to 999,999 and not at a kiosk's record (R173), and a clearing entry of
its stamp is in the closing list where a place is free; a remote release's entry ends DONE with LATE set, or REFUSED with
NOT TAKEN (R82); a crew action settled as TAKEN writes its BIKE MOVE, as the first record also where a slot departs with the
bike (DESIGN CHOICE, log 61), or defers it, and empties the latch, one settled as KEPT leaves the bike HELD and writes
nothing, and both end it with no entry, give back or claim. GONE is refused NOT FOUND or IN USE, and otherwise the entry
leaves the closing list, shown here where no slot waits for the list. VACATE is refused IN CONFIGURATION, IN LINK or IN
FLIGHT, and otherwise the position is not barred. The settled latch stays at a dock whose node is known; at an ABSENT
position and in a kiosk's record it is removed (DEDUCED, log 56). Of several entries of a bike GONE removes the oldest
(DESIGN CHOICE, log 25), and VACATE is IN FLIGHT for a crew action too (DEDUCED, log 26) (R25, R42, R79, R80, R144). -/
def Obligations.DockResolveSettlesThePosition : Prop :=
  ∀ s : State, Taking s →
    let L := s.live
    let refused := fun (c : Instr) (r : Reason) =>
      exec c s = .next (setInHand 22 0 { result := .refused, reason := some r, body := [] } s)
    let settled := fun (c : Instr) (t : State) => exec c s = .next t ∧ t.setup = s.setup ∧ t.live.clock = L.clock ∧
      t.live.port.inHand = some { kind := 22, tag := 0, reply := done [] }
    (∀ n b, 64 ≤ n → ∀ c ∈ [Instr.dockResolveTaken n, .dockResolveKept n, .dockResolveGone n b, .dockResolveVacate n],
      exec c s = .next (setInHand 22 0 (plain .range) s)) ∧
    (∀ p : Pos, (L.dock p).latch ≠ some .uncertain ∨ (findRelease L p = none ∧ findCrew L p = none) →
      refused (.dockResolveTaken p.val) .notUncertain ∧ refused (.dockResolveKept p.val) .notUncertain) ∧
    (∀ (p : Pos) (r : Release), (L.dock p).latch = some .uncertain → findRelease L p = some r →
      let keeps := (L.dock p).kind = some .dock ∧ (L.dock p).known = true
      let gone := fun t : State => t.live.releases = L.releases.filter fun x => x.pos ≠ p
      (∃ t : State, settled (.dockResolveTaken p.val) t ∧ gone t ∧ RemoteEnded r (.done true) L t.live ∧
        (t.live.dock p).latch = (if keeps then some .empty else none) ∧
        (t.live.dock p).snapshot = none ∧
        t.live.journal =
          { ring := L.journal.ring ++
              [{ seq := L.journal.lastIssued + 1, at_ := now L, subject := .card r.stamp.card
                 body := .hireStart r.stamp r.bike r.kind p true }]
            lastIssued := L.journal.lastIssued + 1, claims := L.journal.claims - 1 }) ∧
      (firstWriter L = none → applying s.setup p = none →
        ∃ t : State, settled (.dockResolveKept p.val) t ∧ gone t ∧ RemoteEnded r .notTaken L t.live ∧
          (t.live.dock p).latch = (if keeps then some .held else none) ∧
          (t.live.dock p).snapshot = (if keeps then some ((L.dock p).snapshot.getD .unread) else none) ∧
          t.live.counter p =
            (if (L.dock p).kind ≠ some .kiosk ∧ L.counter p < 999999 then L.counter p + 1 else L.counter p) ∧
          t.live.journal = { L.journal with claims := L.journal.claims - 1 } ∧
          GivenBack r.stamp.card L t.live ∧
          (closingFree L = true → findClosing L r.bike r.stamp.start = none →
            ∃ e ∈ t.live.closing, e.bike = r.bike ∧ e.start = r.stamp.start ∧ e.close = none))) ∧
    (∀ (p : Pos) (c : CrewAction), (L.dock p).latch = some .uncertain → findRelease L p = none →
      findCrew L p = some c →
      let keeps := (L.dock p).kind = some .dock ∧ (L.dock p).known = true
      let ended := fun t : State => findCrew t.live p = none ∧ t.live.releases = L.releases ∧
        t.live.journal.claims = L.journal.claims
      let move : Move :=
        { reason := if c.purpose = .pickup then .vanPickup else .crewRemoval, bike := c.bike, at_ := now L, merged := 0 }
      (∃ t, settled (.dockResolveTaken p.val) t ∧ ended t ∧ ((L.dock p).slot = none → t.live.cards = L.cards) ∧
        (t.live.dock p).latch = (if keeps then some .empty else none) ∧ (t.live.dock p).snapshot = none ∧
        (endRoom L = true →
          L.journal.ring ++
            [{ seq := L.journal.lastIssued + 1, at_ := now L, subject := .position p
               body := .bikeMove move.reason c.bike 0 }] <+: t.live.journal.ring) ∧
        (endRoom L = false → (L.dock p).moves.length < 4 → (t.live.dock p).moves = (L.dock p).moves ++ [move])) ∧
      ∃ t, settled (.dockResolveKept p.val) t ∧ ended t ∧ t.live.cards = L.cards ∧ t.live.closing = L.closing ∧
        (t.live.dock p).latch = (if keeps then some .held else none) ∧
        (t.live.dock p).snapshot = (if keeps then some ((L.dock p).snapshot.getD .unread) else none) ∧
        (applying s.setup p = none → t.live.journal = L.journal)) ∧
    (∀ (p : Pos) (b : BikeId),
      let entry := L.closing.find? fun e => e.bike = b
      let held := ∃ (q : Pos) (t : Tag), (L.dock q).snapshot = some (.read t) ∧ t.bike = b
      (entry = none → exec (.dockResolveGone p.val b) s = .next (setInHand 22 0 (plain .notFound) s)) ∧
      (entry ≠ none → held → exec (.dockResolveGone p.val b) s = .next (setInHand 22 0 (plain .inUse) s)) ∧
      ∀ e, entry = some e → ¬ held →
        (∀ (q : Pos) (x : Slot), (L.dock q).slot = some x → x.window ≠ .deferredList) →
        exec (.dockResolveGone p.val b) s =
          .next (setInHand 22 0 (done [])
            { s with live :=
              (pump { L with closing := L.closing.filter fun x => ¬(x.bike = b ∧ x.start = e.start) }) })) ∧
    ∀ p : Pos,
      let inUse := findRelease L p ≠ none ∨ findCrew L p ≠ none
      (numOf p ≤ (s.setup.arms[armOf p]).expected → refused (.dockResolveVacate p.val) .inConfiguration) ∧
      ((s.setup.arms[armOf p]).expected < numOf p →
        ((L.dock p).inRotation = true → refused (.dockResolveVacate p.val) .inLink) ∧
        ((L.dock p).inRotation = false → inUse → refused (.dockResolveVacate p.val) .inFlight) ∧
        ((L.dock p).inRotation = false → ¬ inUse →
          ∃ t, settled (.dockResolveVacate p.val) t ∧ barred t.live p = false))

/-- REMOTE RELEASE. Outside A01 to D16 it is refused RANGE, at a position that is no READY dock DOCK OUT OF SERVICE, with
eight entries in the remote table BUSY, and nothing changes. Otherwise it is refused by the first check of R71 that fails,
with that check's code as reason and shown at the dock and nothing else changed, a card without a record being CARD UNKNOWN,
with no query started (that BIKE FAULTY goes before WAIT in step 5 is log 29). For a good card below its allowance at a dock
whose bike is hireable, with room in the journal and the arm's queue, it is ACCEPTED: the card's out count and the claims
rise by one, the latch is UNLATCHING with the UNLATCH on its way, and the release and its PENDING entry are made; the tap of
such a card, of no crew, at a READY dock whose bike is hireable starts a release in the same way, without an entry. REMOTE
READ returns the entries in order and removes those that have ENDED (R71–R73, R81, R82, R118). -/
def Obligations.RemoteReleaseStartsARelease : Prop :=
  (∀ (tag : Byte) (id : CardId) (s : State), Taking s →
    let L := s.live
    let answered := fun (p : Nat) (r : Reply) (M : Live) =>
      exec (.remoteRelease tag p id) s = .next (setInHand 23 tag r { s with live := M })
    let refusal := fun c : DisplayCode => ({ result := .refused, reason := some (.display c), body := [] } : Reply)
    exec .remoteRead s =
      .next (setInHand 24 0 (done (listOf L.remotes remoteFlds))
        { s with live := { L with remotes := L.remotes.filter fun e => e.ended = none } }) ∧
    (∀ n, 64 ≤ n → answered n (plain .range) L) ∧
    ∀ p : Pos,
      let d := L.dock p
      let readyDock := d.kind = some .dock ∧ d.link = .ready
      let letsOut := (L.power.state = .run ∨ L.power.state = .quiet) ∧ L.clock.valid = true
      (¬ readyDock → answered p.val (refusal .dockOutOfService) L) ∧
      (readyDock → 8 ≤ L.remotes.length → answered p.val (plain .busy) L) ∧
      (readyDock → L.remotes.length < 8 →
        let refused := fun c : DisplayCode => answered p.val (refusal c) (placeMessage p c L)
        let r := L.arm (armOf p)
        let closed := ¬ letsOut ∨ r.state = .starting
        let outOfService := r.state = .service ∨ barred L p = true
        let noBike := d.latch ≠ some .held ∨ d.snapshot = none
        let faulty := ∀ t, d.snapshot = some (.read t) →
          (∃ x, t.stamp = .opened x) ∨ marked L t = true ∨ d.slot ≠ none
        let early := ∃ t x m, d.snapshot = some (.read t) ∧ t.stamp = .closed x m ∧ L.clock.minute ≤ x.start
        (closed → refused .stationClosed) ∧ (¬ closed → outOfService → refused .dockOutOfService) ∧
          (¬ closed → ¬ outOfService →
            (noBike → refused .noBike) ∧ (¬ noBike → d.reservation ≠ .none → refused .bikeReserved) ∧
            (¬ noBike → d.reservation = .none →
              (faulty → refused .bikeFaulty) ∧ (¬ faulty → early → refused .wait) ∧
              (¬ faulty → ¬ early →
                (findCard L.cards id = none → refused .cardUnknown) ∧
                ∀ x, findCard L.cards id = some x →
                  let expired := (∃ e, x.expiry = some e ∧ e ≤ L.clock.minute) ∨ (x.role = .pass ∧ x.closure ≠ none)
                  let low := x.role = .pass ∧ x.holdRemaining < (s.setup.current.plan x.plan).M
                  (x.status = .blocked → refused .cardBlocked) ∧ (x.status = .good → expired → refused .cardExpired) ∧
                  (x.status = .good → ¬ expired →
                    (x.allowance ≤ x.outCount → refused .limitReached) ∧
                    (x.outCount < x.allowance →
                      (low → refused .lowBalance) ∧
                      (¬ low → L.journal.room < 33 ∨ 16 ≤ r.queue.length → refused .stationBusy))))))) ∧
      ∀ (t : Tag) (r : CardRec), readyDock → L.remotes.length < 8 → letsOut → hireable L p = true →
        d.snapshot = some (.read t) → (∀ x m, t.stamp = .closed x m → x.start < L.clock.minute) →
        findCard L.cards id = some r → r.status = .good → r.expired L.clock.minute = false →
        r.outCount < r.allowance →
        (r.role = .pass → r.closure = none ∧ (s.setup.current.plan r.plan).M ≤ r.holdRemaining) →
        33 ≤ L.journal.room → (L.arm (armOf p)).queue.length < 16 →
        ∃ u : State, exec (.remoteRelease tag p.val id) s = .next u ∧ u.setup = s.setup ∧
          u.live.port.inHand = some { kind := 23, tag := tag, reply := plain .accepted } ∧
          (u.live.dock p).latch = some .unlatching ∧
          u.live.journal = { L.journal with claims := L.journal.claims + 1 } ∧
          findCard u.live.cards id = some { r with outCount := r.outCount + 1 } ∧
          u.live.remotes =
            L.remotes ++ [{ tag := tag, pos := p, card := id, accepted := L.clock.minute, ended := none }] ∧
          let stamp : Stamp :=
            { card := id, start := L.clock.minute, originStation := s.setup.station.getD 0, originPos := p.val
              plan := r.plan, revision := s.setup.current.revision, pass := decide (r.role = .pass) }
          u.live.releases =
            L.releases ++ [{ pos := p, remote := true, bike := t.bike, kind := t.kind, stamp := stamp }] ∧
          OnItsWay { pos := p, command := .unlatch (some stamp) s.setup.takeWindow, issuer := .hireEngine } u.live) ∧
  ∀ (a : Arm) (k : Nat) (s : State), Polling a k s →
    let L := s.live
    let p := posAt a k
    let d := L.dock p
    ∀ (id : CardId) (t : Tag) (r : CardRec), d.kind = some .dock →
      (L.power.state = .run ∨ L.power.state = .quiet) → L.clock.valid = true → hireable L p = true →
      d.snapshot = some (.read t) → (∀ x m, t.stamp = .closed x m → x.start < L.clock.minute) →
      findCard L.cards id = some r → r.role ≠ .crew → r.status = .good → r.expired L.clock.minute = false →
      r.outCount < r.allowance →
      (r.role = .pass → r.closure = none ∧ (s.setup.current.plan r.plan).M ≤ r.holdRemaining) →
      33 ≤ L.journal.room → (L.arm a).queue.length < 16 →
      let stamp : Stamp :=
        { card := id, start := L.clock.minute, originStation := s.setup.station.getD 0, originPos := p.val
          plan := r.plan, revision := s.setup.current.revision, pass := decide (r.role = .pass) }
      Reports a k [.tap id] s fun M =>
        (M.dock p).latch = some .unlatching ∧ (M.dock p).snapshot = d.snapshot ∧
          M.journal = { L.journal with claims := L.journal.claims + 1 } ∧
          findCard M.cards id = some { r with outCount := r.outCount + 1 } ∧
          M.releases = L.releases ++ [{ pos := p, remote := false, bike := t.bike, kind := t.kind, stamp := stamp }] ∧
          M.remotes = L.remotes ∧ M.queries = L.queries ∧
          OnItsWay { pos := p, command := .unlatch (some stamp) s.setup.takeWindow, issuer := .hireEngine } M

/-! ## Fares and settlements (chapters 4 and 5) -/

/-- The fare unit's answer: the generation chosen by the stamp's revision, D and its flags, D split into at most 30 whole days
and a remainder, the gross fare of D minutes from capped day charges and a remainder charge, saturated at 1,000,000, the credit
of a DEFICIT return, and the net (R102–R108). -/
def Obligations.FareFollowsItsStages : Prop :=
  ∀ (g : Setup) (x : Stamp) (kind : BikeKind) (finish : Minute) (fill : FillState),
    let gen := if x.revision = g.current.revision then g.current
      else if x.revision = g.previous.revision then g.previous else g.current
    let plan := gen.plans[x.plan]
    let D := if finish < x.start then 0 else min (finish - x.start) 43200
    let U := if kind = .ebike then plan.P + plan.E else plan.P
    let n := D / 1440
    let r := D % 1440
    let fare := (fareRequest g x kind finish fill).1
    let flags := (fareRequest g x kind finish fill).2
    1 ≤ plan.B → plan.F ≤ 240 →
    (n ≤ 30 ∧ r ≤ 1439 ∧ r + 1440 * n = D) ∧
    ∃ count cap : Nat → Nat,
      (∀ m k, count m ≤ k ↔ m ≤ k * plan.B) ∧ (∀ y, cap y = if plan.C = 0 ∨ y < plan.C then y else plan.C) ∧
      let first := cap (count (1440 - plan.F) * U)
      let later := cap (count 1440 * U)
      let G := if n = 0 then cap (count (r - plan.F) * U) else first + (n - 1) * later + cap (count r * U)
      fare.duration = D ∧ fare.revision = gen.revision ∧
      fare.gross = (if 1000000 < G then 1000000 else G) ∧
      fare.credit = (if fill = .deficit then (if plan.K < fare.gross then plan.K else fare.gross) else 0) ∧
      fare.net + fare.credit = fare.gross ∧
      (flags.clock = true ↔ finish < x.start) ∧ (flags.overlong = true ↔ x.start + 43200 < finish) ∧
      (flags.ceiling = true ↔ 1000000 < G) ∧
      (flags.fallback = true ↔ x.revision ≠ g.current.revision ∧ x.revision ≠ g.previous.revision) ∧
      (flags.eligible = true ↔ D ≤ plan.W) ∧
      flags.waived = false ∧ flags.holdRemote = false ∧ flags.late = false

/-- The end of a settlement window. In OFF nothing changes; at a position without a slot whose window runs nothing changes
but what idle arms hand out (DESIGN CHOICE, log 6). A slot whose window runs is settled: its figures are those of R109 and
R110 (the final net is 0 for a REPORTED slot that is eligible for the waiver, else the net; an account is billed; a hold is
charged as far as it reaches), and where the closing list is full it is DEFERRED for the list, where the journal has no room
or a writer waits for it DEFERRED for the journal. With room in both HIRE END is written, the stamp becomes a closing entry
and the slot leaves; the entry is AWAY where no dock holds the bike with its OPEN stamp. A bike that arrives in an EMPTY
latch, at a minute that makes no SERVICE DUE, is classified by the first row of R83 that fits: unexplained with its BIKE
MOVE, written or deferred; a resighting, with CLOSE STAMP on its way, or of a slot's stamp; a late take, whose release ends
with HIRE START; held, with nothing changed; a return, with the card given back, its slot and fare, or no fare while the
clock is invalid, and RETURN OK; or a van drop, counted, which closes a visit whose work order it completes, one that is all
zero never (DEDUCED, log 79). A BUTTON in a RUNNING window makes the slot REPORTED, with MARK FAULT offered and BIKE
REPORTED live, given room in the fault list; in both it places REPORT TAKEN. DEDUCED: that a late take at a position with a
slot is held and makes no second slot is log 23, and that the settled latch is removed at an ABSENT or kiosk position log 56
(R38, R83–R88, R91, R109, R110, R145, R146, R151, R181). -/
def Obligations.WindowExpirySettlesTheSlot : Prop :=
  (∀ (p : Pos) (s : State), Working s →
    let L := s.live
    let run := exec (.settlementWindowExpiry p) s
    let runs := fun x : Slot => x.window = .running ∨ x.window = .reported
    (L.power.state = .off → run = .next s) ∧
    (L.power.state ≠ .off → (∀ x, (L.dock p).slot = some x → ¬ runs x) →
      run = .next { s with live := pump L }) ∧
    ∀ x : Slot, L.power.state ≠ .off → (L.dock p).slot = some x → runs x →
      let waived := x.window = .reported ∧ x.flags.eligible = true
      let final := if waived then 0 else (x.fare.map (·.net)).getD 0
      let pass := (findCard L.cards x.stamp.card).filter fun r => r.role = .pass
      let charged := (pass.map fun r => min final r.holdRemaining).getD 0
      let figures := fun y : Slot =>
        y.bike = x.bike ∧ y.stamp = x.stamp ∧ y.endMinute = x.endMinute ∧ y.fare = x.fare ∧ y.fill = x.fill ∧
          y.settlement =
            (if x.stamp.pass then
              some { kind := .hold, charged := charged, shortfall := final - charged, finalNet := final }
            else some { kind := .account, charged := 0, shortfall := 0, finalNet := final }) ∧
          y.flags.waived = decide waived ∧ (x.stamp.pass = true → pass = none → y.flags.holdRemote = true)
      let after := fun t : State => run = .next t ∧ t.setup = s.setup ∧ t.live.clock = L.clock ∧
        (x.stamp.pass = false → t.live.cards = L.cards) ∧
        ∀ r, x.stamp.pass = true → pass = some r →
          findCard t.live.cards x.stamp.card = some { r with holdRemaining := r.holdRemaining - charged }
      (closingFree L = false →
        ∃ (t : State) (y : Slot), after t ∧ (t.live.dock p).slot = some y ∧ figures y ∧ y.window = .deferredList ∧
          t.live.journal = L.journal ∧ t.live.closing = L.closing) ∧
      (closingFree L = true → endRoom L = false →
        ∃ (t : State) (y : Slot), after t ∧ (t.live.dock p).slot = some y ∧ figures y ∧
          y.window = .deferredJournal ∧ y.reserved = true ∧ t.live.journal = L.journal ∧
          t.live.closing = L.closing) ∧
      (closingFree L = true → endRoom L = true →
        (L.dock p).holdsStamp x.bike x.stamp.start = true ∨ (L.dock p).latch ≠ some .held →
        ∃ (t : State) (y : Slot), after t ∧ (t.live.dock p).slot = none ∧ figures y ∧
          t.live.journal =
            { L.journal with
              lastIssued := L.journal.lastIssued + 1
              ring := L.journal.ring ++
                [{ seq := L.journal.lastIssued + 1, at_ := now L, subject := .bike x.bike
                   body := .hireEnd y p }] } ∧
          ∃ e ∈ t.live.closing, e.bike = x.bike ∧ e.start = x.stamp.start ∧ e.close = some (x.endMinute.getD 0) ∧
            (findClosing L x.bike x.stamp.start = none →
              (∀ q : Pos, (L.dock q).holdsStamp x.bike x.stamp.start = false) → e.state = .away))) ∧
  ∀ (a : Arm) (k : Nat) (s : State), Polling a k s →
    let L := s.live
    let p := posAt a k
    let d := L.dock p
    d.kind = some .dock →
    (d.latch = some .empty → (∀ v, applying s.setup p = some v → L.counter p + 1 ≠ v) →
      let arrives := fun (snap : Snapshot) (P : Live → Prop) => Reports a k [.bikeIn snap] s P
      let keeps := fun M : Live => M.cards = L.cards ∧ (M.dock p).slot = d.slot
      let planned := fun M : Live =>
        (M.dock p).reservation = (if d.reservation = .vanDrop then .none else d.reservation)
      let moves := fun (reason : MoveReason) (bike : Option BikeId) (M : Live) =>
        (endRoom L = true →
          M.journal =
            { L.journal with
              lastIssued := L.journal.lastIssued + 1
              ring := L.journal.ring ++
                [{ seq := L.journal.lastIssued + 1, at_ := now L, subject := .position p
                   body := .bikeMove reason bike 0 }] }) ∧
        (endRoom L = false → M.journal = L.journal ∧
          (d.moves.length < 4 →
            (M.dock p).moves = d.moves ++ [{ reason := reason, bike := bike, at_ := now L, merged := 0 }]))
      let unexplained := fun (bike : Option BikeId) (M : Live) => keeps M ∧ planned M ∧ moves .unexplained bike M
      (arrives .unread (unexplained none)) ∧
      ∀ t : Tag,
        (stampShut t.stamp = true → L.visit.state ≠ .working → arrives (.read t) (unexplained (some t.bike))) ∧
        (stampShut t.stamp = true → L.visit.state = .working → ∀ v, L.visit.data = some v →
          let drops := if v.dropsDone < 255 then v.dropsDone + 1 else 255
          let asks := v.pickupsPlanned ≠ 0 ∨ v.dropsPlanned ≠ 0 ∨ v.collectionsPlanned ≠ 0
          let complete := asks ∧ v.pickupsPlanned ≤ v.pickupsDone ∧ v.dropsPlanned ≤ drops ∧
            v.collectionsPlanned ≤ v.collectionsDone
          v.dropsDone ≤ 255 →
          (¬ complete → arrives (.read t) fun M => keeps M ∧ planned M ∧ moves .vanDrop (some t.bike) M ∧
            M.visit = { state := .working, data := some { v with dropsDone := drops } }) ∧
          (complete → arrives (.read t) fun M => keeps M ∧ M.visit.state = .closed ∧
            (M.visit.data.map fun x => (x.dropsDone, x.close)) = some (drops, some (.complete, now L)) ∧
            ∀ q : Pos, (M.dock q).reservation = .none)) ∧
        ∀ x : Stamp, t.stamp = .opened x →
          let listed := findClosing L t.bike x.start
          let inSlot := ∃ (q : Pos) (y : Slot), (L.dock q).slot = some y ∧ y.bike = t.bike ∧ y.stamp.start = x.start
          let out := releaseElsewhere L t.bike x.start p
          let same := fun M : Live => keeps M ∧ planned M ∧ M.journal = L.journal
          let returned := fun M : Live =>
            let f := fareRequest s.setup x t.kind L.clock.minute L.fillState
            planned M ∧ Shows p .returnOk M ∧
            M.cards = L.cards.map (fun r => if r.card = x.card then { r with outCount := r.outCount - 1 } else r) ∧
            ∃ y, (M.dock p).slot = some y ∧ y.bike = t.bike ∧ y.kind = t.kind ∧ y.stamp = x ∧ y.fill = L.fillState ∧
              y.settlement = none ∧ y.flags.late = false ∧
              (L.clock.valid = true → y.endMinute = some L.clock.minute ∧ y.window = .running ∧
                y.secondsLeft = s.setup.settleWindow ∧ y.fare = some f.1 ∧ y.flags = { f.2 with late := false }) ∧
              (L.clock.valid = false → y.endMinute = none ∧ y.window = .expired ∧ y.fare = none)
          (∀ e, listed = some e → arrives (.read t) fun M => same M ∧
            ((L.arm a).queue.length < 16 →
              (∀ q : Pos, q ≠ p → (L.dock q).holdsStamp t.bike x.start = false) →
              OnItsWay { pos := p, command := .closeStamp t.bike x.start e.close, issuer := .hireEngine } M)) ∧
          (listed = none → inSlot → arrives (.read t) same) ∧
          (listed = none → ¬ inSlot →
            (∀ r, out = some r → arrives (.read t) fun M =>
              (d.slot = none → returned M) ∧ (d.slot ≠ none → keeps M ∧ planned M) ∧
              M.releases = L.releases.filter (fun y => y.pos ≠ r.pos) ∧
              (M.dock r.pos).latch =
                (if (L.dock r.pos).kind = some .dock ∧ (L.dock r.pos).known = true then some .empty else none) ∧
              L.journal.ring ++
                [{ seq := L.journal.lastIssued + 1, at_ := now L, subject := .card r.stamp.card
                   body := .hireStart r.stamp r.bike r.kind r.pos
                     (decide ((L.dock r.pos).latch = some .uncertain)) }] <+: M.journal.ring) ∧
            (out = none → d.slot ≠ none → arrives (.read t) same) ∧
            (out = none → d.slot = none → arrives (.read t) returned))) ∧
    ∀ x : Slot, d.slot = some x →
      (x.window = .running → Reports a k [.button] s fun M => Shows p .reportTaken M ∧
        (M.dock p).slot = some { x with window := .reported } ∧
        (FaultRoom 1 L → LiveFault .bikeReported (.bike x.bike) M) ∧
        ((L.arm a).queue.length < 16 →
          OnItsWay { pos := p, command := .markFault x.bike L.clock.minute (s.setup.station.getD 0)
                     issuer := .hireEngine } M)) ∧
      (x.window = .reported → Reports a k [.button] s fun M => Shows p .reportTaken M ∧
        (M.dock p).slot = some x ∧ M.faults = L.faults ∧ M.journal = L.journal ∧ M.cards = L.cards)

/-! ## The journal, van visits and faults (chapters 6, 7 and 8) -/

/-- JOURNAL RELEASE through a number above the last issued is refused RANGE. Otherwise every record numbered so or lower
leaves, those above stay at the oldest end of the ring, the reply carries the number removed and the figures as they stand
after the waiting writers were served, and where no writer waits nothing else changes but what idle arms hand out (R121,
R123). Where records left, the waiting writers are served in the order of R120 while unclaimed room lasts, each with the
next sequence number, a FAULT OPENED that waited with the detail of its record as it stands now (DEDUCED, log 31): HIRE
ENDs, then moves, and where no HIRE END waits then fault records, the van summary and pass closures, and with room for all
none waits any more; a HIRE END's stamp becomes a closing entry and its slot leaves. (What follows a HIRE END can itself ask
for records: the return of a held arrival with the CLOCK flag.) DESIGN CHOICE, log 34: the figures of R122, which hold the
oldest and the last issued number, stand once after the number removed. -/
def Obligations.JournalReleaseRemovesConfirmedRecords : Prop :=
  ∀ (n : Nat) (s : State), Taking s →
    let L := s.live
    let run := exec (.journalRelease n) s
    let kept := L.journal.ring.filter fun r => n < r.seq
    let removed := L.journal.ring.length - kept.length
    (L.journal.lastIssued < n → run = .next (setInHand 30 0 (plain .range) s)) ∧
    (n ≤ L.journal.lastIssued →
      (∃ t : State, run = .next t ∧ t.setup = s.setup ∧ kept <+: t.live.journal.ring ∧
        L.journal.lastIssued ≤ t.live.journal.lastIssued ∧
        t.live.port.inHand =
          some { kind := 30, tag := 0, reply := done (b2 removed :: journalFigures t.live) }) ∧
      (firstWriter L = none →
        let M := { L with journal := { L.journal with ring := kept } }
        run = .next (setInHand 30 0 (done (b2 removed :: journalFigures M)) { s with live := pump M })) ∧
      (removed ≠ 0 → WritersTold L →
        let room := { L.journal with ring := kept }.room
        let first := waitingEnds L ++ waitingMoves L
        let all := waitingMoves L ++ waitingFaults L ++ waitingSummary L ++ waitingPasses L
        ∃ t : State, run = .next t ∧
          kept ++ numberedFrom (L.journal.lastIssued + 1) (first.take room) <+: t.live.journal.ring ∧
          ((waitingEnds L).length ≤ room → ∀ (p : Pos) (x : Slot), (L.dock p).slot = some x → x.window = .deferredJournal →
            (t.live.dock p).slot ≠ some x ∧
              ∃ e ∈ t.live.closing, e.bike = x.bike ∧ e.start = x.stamp.start ∧ e.close = some (x.endMinute.getD 0)) ∧
          (waitingEnds L = [] →
            t.live.journal.ring = kept ++ numberedFrom (L.journal.lastIssued + 1) (all.take room) ∧
              t.live.journal.lastIssued = L.journal.lastIssued + min room all.length ∧
              (all.length ≤ room → firstWriter t.live = none))))

/-- Journal records are numbered without a gap and the last number issued is the newest record's: every step keeps it
(R113). The claims of the releases in flight fit the free slots: every step keeps that too (R116, R118). -/
def Obligations.StepKeepsTheJournalNumbered : Prop :=
  (∀ s t : State, s.live.journal.numbered = true → step s = .next t → t.live.journal.numbered = true) ∧
    ∀ s t : State, ClaimsFit s.live → step s = .next t → ClaimsFit t.live

/-- VAN OPEN: its checks in order give BUSY, STATION CLOSED, NOT CREW or FULL and change nothing. Otherwise the visit is
OPEN with the planned counts that the band and the fill counts give and every done count 0, VAN OPENED is appended, and
the reservations stand at the first hireable bikes and the first free docks in position order, every other reservation as
it was. A crew tap at a dock that is not barred makes the OPEN visit of its card WORKING and is decided by the first step
of R138 that applies: refused with its code, a collection of a bike with a fault mark, a pickup of a bike reserved VAN
PICKUP by the visit's own card, or LIMIT REACHED; an unlatch makes the latch UNLATCHING and its crew action, and where the
arm's queue is full STATION BUSY is shown (R134–R139). -/
def Obligations.VanOpenPlacesTheWorkOrder : Prop :=
  (∀ (van : VanId) (card : CardId) (minutes : Nat) (s : State), Taking s →
    let L := s.live
    let run := exec (.vanOpen van card minutes) s
    let refused := fun r : Reply => run = .next (setInHand 33 0 r s)
    let open_ := L.visit.state = .opened ∨ L.visit.state = .working
    let letsOut := (L.power.state = .run ∨ L.power.state = .quiet) ∧ L.clock.valid = true
    let crew := ∃ r, findCard L.cards card = some r ∧ r.role = .crew ∧ r.status = .good ∧
      r.expired L.clock.minute = false
    (open_ → refused (plain .busy)) ∧
    (¬ open_ → ¬ letsOut → refused { result := .refused, reason := some (.display .stationClosed), body := [] }) ∧
    (¬ open_ → letsOut → ¬ crew → refused { result := .refused, reason := some .notCrew, body := [] }) ∧
    (¬ open_ → letsOut → crew → L.journal.room < 33 → refused (plain .full)) ∧
    (¬ open_ → letsOut → crew → 33 ≤ L.journal.room →
      let window := if minutes < 5 then 5 else if 120 < minutes then 120 else minutes
      let pickups := L.fill.hireable - s.setup.target
      let drops := min (s.setup.target - L.fill.hireable) L.fill.free
      let pickupAt := (allPos.filter (hireable L)).take pickups
      let dropAt := (allPos.filter (freeDock L)).take drops
      ∃ t : State, run = .next t ∧ t.setup = s.setup ∧ t.live.clock = L.clock ∧
        t.live.visit =
          { state := .opened
            data := some
              { van := van, card := card, opening := L.clock.minute, window := window, secondsLeft := window * 60
                pickupsPlanned := pickups, dropsPlanned := drops, collectionsPlanned := L.fill.faulty
                pickupsDone := 0, dropsDone := 0, collectionsDone := 0, close := none, summaryPending := false } } ∧
        t.live.journal =
          { L.journal with
            lastIssued := L.journal.lastIssued + 1
            ring := L.journal.ring ++
              [{ seq := L.journal.lastIssued + 1, at_ := now L, subject := .station
                 body := .vanOpened van card window pickups drops L.fill.faulty }] } ∧
        (∀ p : Pos, (t.live.dock p).reservation =
          if p ∈ pickupAt then .vanPickup else if p ∈ dropAt then .vanDrop else (L.dock p).reservation) ∧
        t.live.port.inHand =
          some { kind := 33, tag := 0
                 reply := done ([b1 pickups, b1 drops, b1 L.fill.faulty] ++
                   listOf (pickupAt ++ dropAt) fun p => [posFld p]) })) ∧
  ∀ (a : Arm) (k : Nat) (s : State), Polling a k s →
    let L := s.live
    let p := posAt a k
    let d := L.dock p
    ∀ (id : CardId) (r : CardRec), d.kind = some .dock → findCard L.cards id = some r → r.role = .crew →
      barred L p = false →
      let mine := (L.visit.state = .opened ∨ L.visit.state = .working) ∧ ∃ v, L.visit.data = some v ∧ v.card = id
      let visited := fun M : Live =>
        (mine → M.visit = { L.visit with state := .working }) ∧ (¬ mine → M.visit = L.visit) ∧
          M.cards = L.cards ∧ M.journal = L.journal ∧ M.releases = L.releases ∧
          (M.dock p).snapshot = d.snapshot ∧ (M.dock p).reservation = d.reservation
      let refused := fun c : DisplayCode =>
        Reports a k [.tap id] s fun M => visited M ∧ Shows p c M ∧ (M.dock p).latch = d.latch ∧ M.crew = L.crew
      let unlatched := fun (purpose : Purpose) (counted : Prop) =>
        ((L.arm a).queue.length < 16 → Reports a k [.tap id] s fun M => visited M ∧ (M.dock p).latch = some .unlatching ∧
          (∃ b : Bool, (b = true ↔ counted) ∧
            M.crew = L.crew ++ [{ pos := p, purpose := purpose, bike := d.tag.map (·.bike), card := id, counted := b }]) ∧
          OnItsWay { pos := p, command := .unlatch none s.setup.takeWindow, issuer := .fillUnit } M) ∧
        (16 ≤ (L.arm a).queue.length → refused .stationBusy)
      let expired := ∃ e, r.expiry = some e ∧ e ≤ L.clock.minute
      let closed := ¬((L.power.state = .run ∨ L.power.state = .quiet) ∧ L.clock.valid = true)
      let bikeMarked := ∃ t, d.snapshot = some (.read t) ∧ marked L t = true
      (r.status = .blocked → refused .cardBlocked) ∧
      (r.status = .good → expired → refused .cardExpired) ∧
      (r.status = .good → ¬ expired →
        (closed → refused .stationClosed) ∧
        (¬ closed → (L.arm a).state ≠ .running → refused .dockOutOfService) ∧
        (¬ closed → (L.arm a).state = .running →
          (d.latch = some .unlatching ∨ d.latch = some .opened → refused .wait) ∧
          (d.latch = some .empty → refused .noBike) ∧
          (d.latch = some .held →
            (bikeMarked → unlatched .collection mine) ∧
            (¬ bikeMarked → d.reservation = .vanPickup → mine → unlatched .pickup True) ∧
            (¬ bikeMarked → ¬(d.reservation = .vanPickup ∧ mine) → refused .limitReached))))

/-- VAN CLOSE closes the visit that is OPEN or WORKING with reason CLOSED and replies DONE with its planned and done counts;
in NONE or CLOSED it is refused NOT FOUND and nothing changes. The end of the van window closes it with reason EXPIRED, in
RUN and QUIET. At the close no position keeps a reservation, VAN DONE is raised, and the summary is appended or pending
(R150–R153). Every crew pickup whose UNLATCH is still queued is withdrawn, its latch HELD and nothing shown; every other
crew action stays (R143, R151). Every step keeps that reservations stand only while a visit is OPEN or WORKING (R136). The
end of a van window without an open visit that counts changes nothing (DESIGN CHOICE, log 6). -/
def Obligations.VanVisitCloses : Prop :=
  (∀ s t : State, ReservedForVisit s.live → step s = .next t → ReservedForVisit t.live) ∧
  ∀ s : State,
    let L := s.live
    let open_ := L.visit.state = .opened ∨ L.visit.state = .working
    let closed := fun (reason : CloseReason) (v : VisitRec) (t : State) =>
      t.setup = s.setup ∧ t.live.clock = L.clock ∧ t.live.visit.state = .closed ∧
        t.live.visit.data =
          some { v with close := some (reason, now L), secondsLeft := 0
                        summaryPending := v.summaryPending || !endRoom L } ∧
        (∀ p : Pos, (t.live.dock p).reservation = .none) ∧
        (∀ c ∈ L.crew, c.purpose = .pickup → unlatchQueued L c.pos = true →
          CrewWithdrawn c.pos t.live ∧
            ((L.arm (armOf c.pos)).txn ≠ none → (t.live.dock c.pos).code = (L.dock c.pos).code)) ∧
        (∀ c ∈ L.crew, (∀ x ∈ L.crew, x.pos = c.pos → ¬(x.purpose = .pickup ∧ unlatchQueued L x.pos = true)) →
          c ∈ t.live.crew) ∧
        t.live.attention[EventKind.vanDone.idx] =
          { pending := true, count := (L.attention[EventKind.vanDone.idx]).count + 1 } ∧
        t.live.journal =
          if endRoom L then
            { L.journal with
              lastIssued := L.journal.lastIssued + 1
              ring := L.journal.ring ++
                [{ seq := L.journal.lastIssued + 1, at_ := now L, subject := .station
                   body := .vanVisit v.van (v.pickupsPlanned, v.dropsPlanned, v.collectionsPlanned)
                     (v.pickupsDone, v.dropsDone, v.collectionsDone) reason }] }
          else L.journal
    (Taking s →
      (¬ open_ → exec .vanClose s = .next (setInHand 34 0 (plain .notFound) s)) ∧
      (∀ v, open_ → L.visit.data = some v → ∃ t : State, exec .vanClose s = .next t ∧ closed .closed v t ∧
        t.live.port.inHand =
          some { kind := 34, tag := 0
                 reply := done [b1 v.pickupsPlanned, b1 v.dropsPlanned, b1 v.collectionsPlanned, b1 v.pickupsDone,
                   b1 v.dropsDone, b1 v.collectionsDone] })) ∧
    (Working s →
      let counts := L.power.state = .run ∨ L.power.state = .quiet
      (¬(open_ ∧ counts) → exec .vanWindowExpiry s = .next s) ∧
      (∀ v, open_ → counts → L.visit.data = some v →
        ∃ t : State, exec .vanWindowExpiry s = .next t ∧ closed .expired v t ∧ t.live.port = L.port))

/-- FAULT ACK makes the live record of the number ACKED and changes nothing else. FAULT CLEAR refuses a barring record CREW
ONLY with nothing changed, and clears any other live record with means HOST: where no write of the record waits and the
journal has room, FAULT CLEARED is appended and the record leaves; otherwise the record is CLEARED and its write waits. A
number that no live record holds is NOT FOUND to both. A BUTTON outside a window places REPORT TAKEN and, given room in the
fault list, BIKE REPORTED is live for the bike read there, with MARK FAULT on its way where it has no mark (also at a
repeat: DEDUCED, log 77), or DOCK REPORTED for a dock without one. A crew tap at a barred dock clears every barring record
about it and places CREW OK, FAULT CLEARED written for each in list order (DESIGN CHOICE, log 76) with means CREW and the
card, where the journal has room for all and no write of theirs waits, and otherwise each record CLEARED and its write
waiting; a blocked or expired card clears nothing and is refused (R157–R160, R165–R167, R169, R170). At LATCH JAM, READER
FAULT and TAG FAIL of a dock and a BUTTON of an empty one: a live record of the kind and subject repeats, a CLEARED one is
reopened, each with no record written; otherwise a new record with the next free number is made, FAULT OPENED written or
waiting, and FAULT NEW is raised but for a repeat (R155, R157, R170). With 95 ordinary records and none of the kind and
subject a fault is not stored and bars nothing: LIST FULL is live with it as the last lost (R158). A DOCK REPORTED counts in
runs, and a third report within 1440 minutes bars (R161; a reopening begins a new run also where the list calls it a repeat:
DEDUCED, log 32). With three live records at the dock the newest that is not NODE LOST is barring (R163). A bar newly set
gives up the dock's reservation, places the resting code due, withdraws a crew action whose UNLATCH is queued, and takes the
dock out of the fill counts (R164). Every step keeps that no two records have one number or one kind and subject (R155,
R157). -/
def Obligations.FaultAckAndClearActOnOneRecord : Prop :=
  (∀ s t : State, FaultsDistinct s.live → step s = .next t → FaultsDistinct t.live) ∧
  (∀ (n : Nat) (s : State), Taking s →
    let L := s.live
    let found := L.faults.find? fun f => decide (f.number = n) && decide (f.state ≠ .cleared)
    (found = none →
      exec (.faultAck n) s = .next (setInHand 36 0 (plain .notFound) s) ∧
      exec (.faultClear n) s = .next (setInHand 37 0 (plain .notFound) s)) ∧
    ∀ f, found = some f →
      (∃ faults : List FaultRec,
        exec (.faultAck n) s = .next (setInHand 36 0 (done []) { s with live := { L with faults := faults } }) ∧
        faults = L.faults.map fun x => if x.number = n ∧ x.state ≠ .cleared then { x with state := .acked } else x) ∧
      (f.barring = true → exec (.faultClear n) s = .next (setInHand 37 0 (plain .crewOnly) s)) ∧
      (f.barring = false →
        ∃ t : State, exec (.faultClear n) s = .next t ∧ t.setup = s.setup ∧ t.live.clock = L.clock ∧
          t.live.port.inHand = some { kind := 37, tag := 0, reply := done [] } ∧
          (f.pending = .none ∧ endRoom L = true →
            t.live.faults = L.faults.filter (fun x => x.number ≠ n) ∧
            t.live.journal =
              { L.journal with
                lastIssued := L.journal.lastIssued + 1
                ring := L.journal.ring ++
                  [{ seq := L.journal.lastIssued + 1, at_ := now L, subject := f.subject
                     body := .faultCleared n f.kind f.repeats f.opening.minute f.lastSeen false .host }] }) ∧
          (¬(f.pending = .none ∧ endRoom L = true) →
            t.live.journal = L.journal ∧
            t.live.faults = L.faults.map fun x =>
              if x.number = n then
                { f with
                  state := .cleared, barring := false, clearing := some (.host, now L, false)
                  pending := f.pending.askCleared }
              else x))) ∧
  (∀ (a : Arm) (k : Nat) (s : State), Polling a k s →
    let L := s.live
    let p := posAt a k
    let d := L.dock p
    d.kind = some .dock →
    ((∀ x, d.slot = some x → x.window ≠ .running ∧ x.window ≠ .reported) →
      (∀ t, d.snapshot = some (.read t) → Reports a k [.button] s fun M => Shows p .reportTaken M ∧
        (M.dock p).slot = d.slot ∧
        (FaultRoom 1 L → LiveFault .bikeReported (.bike t.bike) M ∧
          (t.mark = none → (L.arm a).queue.length < 16 →
            OnItsWay { pos := p, command := .markFault t.bike L.clock.minute (s.setup.station.getD 0)
                       issuer := .faultUnit } M))) ∧
      ((∀ t, d.snapshot ≠ some (.read t)) → Reports a k [.button] s fun M => Shows p .reportTaken M ∧
        (M.dock p).slot = d.slot ∧ (FaultRoom 1 L → LiveFault .dockReported (.position p) M))) ∧
    ∀ (id : CardId) (r : CardRec), findCard L.cards id = some r → r.role = .crew → barred L p = true →
      let expired := ∃ e, r.expiry = some e ∧ e ≤ L.clock.minute
      let refused := fun c : DisplayCode =>
        Reports a k [.tap id] s fun M => Shows p c M ∧ M.faults = L.faults ∧ M.journal = L.journal
      (r.status = .blocked → refused .cardBlocked) ∧ (r.status = .good → expired → refused .cardExpired) ∧
      (r.status = .good → ¬ expired → Reports a k [.tap id] s fun M => Shows p .crewOk M ∧ barred M p = false ∧
        let bars := L.faults.filter fun x => x.barring && x.subject = .position p
        let others := L.faults.filter fun x => !(x.barring && x.subject = .position p)
        let apart := (L.faults.map (·.number)).Nodup
        (apart → (∀ f ∈ bars, f.pending = .none) → firstWriter L = none → bars.length ≤ L.journal.room →
          M.faults = others ∧
          M.journal =
            { L.journal with
              lastIssued := L.journal.lastIssued + bars.length
              ring := L.journal.ring ++ bars.mapIdx (fun i f =>
                { seq := L.journal.lastIssued + 1 + i, at_ := now L, subject := .position p
                  body := .faultCleared f.number f.kind f.repeats f.opening.minute f.lastSeen true (.crew id) }) }) ∧
        (apart → endRoom L = false → M.journal = L.journal ∧
          M.faults = L.faults.map fun f =>
            if f.barring ∧ f.subject = .position p then
              { f with
                state := .cleared, barring := false, clearing := some (.crew id, now L, true)
                pending := f.pending.askCleared }
            else f))) ∧
  ∀ (a : Arm) (k : Nat) (s : State), Polling a k s →
    let L := s.live
    let p := posAt a k
    let d := L.dock p
    d.kind = some .dock → ∀ (e : NodeEvent) (kind : FaultKind),
      (e = .latchJam ∧ kind = .latchJam) ∨ (e = .readerFault ∧ kind = .readerFault) ∨ (e = .tagFail ∧ kind = .tagFault) ∨
        (e = .button ∧ kind = .dockReported ∧ (∀ t, d.snapshot ≠ some (.read t)) ∧
          ∀ x, d.slot = some x → x.window ≠ .running ∧ x.window ≠ .reported) →
      let report := kind = .dockReported
      let bars := kind ≠ .dockReported
      let m := L.clock.minute
      let mine := fun x : FaultRec => decide (x.kind = kind) && decide (x.subject = .position p)
      let live := fun N : Live => N.faults.filter fun x => decide (x.subject = .position p) && decide (x.state ≠ .cleared)
      let raised := (L.attention[EventKind.faultNew.idx]).count
      let apart := (L.faults.map (·.number)).Nodup
      let opens := fun P : Live → Prop => Reports a k [e] s P
      (∀ f, L.faults.find? mine = some f → f.state ≠ .cleared → apart → opens fun M =>
        M.faults.map (·.number) = L.faults.map (·.number) ∧ M.journal = L.journal ∧
        M.attention[EventKind.faultNew.idx] = L.attention[EventKind.faultNew.idx] ∧
        ∃ g ∈ M.faults, g.number = f.number ∧ g.state = f.state ∧ g.opening = f.opening ∧ g.lastSeen = m ∧
          (f.barring = true ∨ bars → g.barring = true) ∧
          (bars → g.repeats = min 65535 (f.repeats + 1)) ∧
          (report → f.lastSeen + 1440 < m → g.repeats = 1 ∧ g.reports = [m]) ∧
          (report → m ≤ f.lastSeen + 1440 → g.repeats = min 65535 (f.repeats + 1) ∧
            g.reports = (f.reports ++ [m]).drop (f.reports.length - 2) ∧
            ∀ x y, f.reports.drop (f.reports.length - 2) = [x, y] → m ≤ x + 1440 → barred M p = true)) ∧
      (∀ f, L.faults.find? mine = some f → f.state = .cleared → apart → opens fun M =>
        M.faults.map (·.number) = L.faults.map (·.number) ∧ M.journal = L.journal ∧
        M.attention[EventKind.faultNew.idx] = { pending := true, count := raised + 1 } ∧
        ∃ g ∈ M.faults, g.number = f.number ∧ g.state = .opened ∧ g.clearing = none ∧ g.opening = f.opening ∧
          g.lastSeen = m ∧
          g.pending = (if f.pending = .cleared then .none else if f.pending = .both then .opened else f.pending) ∧
          (bars → g.barring = true ∧ g.repeats = min 65535 (f.repeats + 1)) ∧
          (report → g.repeats = 1 ∧ g.reports = [m])) ∧
      (L.faults.find? mine = none → L.faults.length < 95 → opens fun M =>
        M.attention[EventKind.faultNew.idx] = { pending := true, count := raised + 1 } ∧
        ∃ (rest : List FaultRec) (g : FaultRec), M.faults = rest ++ [g] ∧
          rest.map (·.number) = L.faults.map (·.number) ∧ g.kind = kind ∧ g.subject = .position p ∧
          g.state = .opened ∧ g.opening = now L ∧ g.lastSeen = m ∧ g.repeats = 1 ∧
          g.reports = (if kind = .dockReported then [m] else []) ∧
          (∀ x ∈ L.faults, x.number ≠ g.number) ∧
          ((∀ x ∈ L.faults, x.number ≠ L.nextFault) → g.number = L.nextFault) ∧
          g.barring = decide (bars ∨ 2 ≤ (live L).length) ∧ g.barringAtOpening = g.barring ∧
          (endRoom L = true → g.pending = .none ∧
            M.journal =
              { L.journal with
                lastIssued := L.journal.lastIssued + 1
                ring := L.journal.ring ++
                  [{ seq := L.journal.lastIssued + 1, at_ := now L, subject := .position p
                     body := .faultOpened g.number kind g.barring .none }] }) ∧
          (endRoom L = false → g.pending = .opened ∧ M.journal = L.journal)) ∧
      (L.faults.find? mine = none → 95 ≤ (L.faults.filter fun x => x.kind ≠ .listFull).length → opens fun M =>
        M.faults.find? mine = none ∧ barred M p = barred L p ∧
        ∃ g ∈ M.faults, g.kind = .listFull ∧ g.subject = .station ∧ g.state ≠ .cleared ∧
          g.detail = .lastLost kind (.position p)) ∧
      (L.faults.find? mine ≠ none ∨ L.faults.length < 95 → opens fun M =>
        (3 ≤ (live M).length → ∀ g, ((live M).filter fun x => x.kind ≠ .nodeLost).getLast? = some g → g.barring = true) ∧
        M.fill = countFill M ∧
        (barred L p = false → barred M p = true →
          (M.dock p).reservation = .none ∧
          (∀ c, RestingDue p c M → (M.dock p).lastResting = some c) ∧
          (findCrew L p ≠ none → unlatchQueued L p = true → CrewWithdrawn p M)))
end

