-- ==== Sys2Proof/Laws/State.lean ====
section
/-! SUPPORT. One lemma per field per update of the state, for simp: no later proof unfolds a record update. -/

namespace Sys2Proof.Machine

/-! ## Vectors -/

/-- Reading the changed element. -/
@[simp] theorem upd_same {α : Type} {n : Nat} (v : Vector α n) (i : Fin n) (f : α → α) : (upd v i f)[i.val] = f v[i.val] := by
  simp [upd]

/-- Reading another element. -/
theorem upd_other {α : Type} {n : Nat} (v : Vector α n) {i j : Fin n} (f : α → α) (h : j ≠ i) :
    (upd v i f)[j.val] = v[j.val] := by
  have : i.val ≠ j.val := fun e => h (Fin.ext e.symm)
  simp [upd, this]

/-- Reading any element. -/
theorem upd_get {α : Type} {n : Nat} (v : Vector α n) (i j : Fin n) (f : α → α) :
    (upd v i f)[j.val] = if j = i then f v[j.val] else v[j.val] := by
  split
  · next h => subst h; simp
  · next h => exact upd_other v f h

/-- Mapping a vector whose changed element maps to the same. -/
theorem map_upd {α β : Type} {n : Nat} (v : Vector α n) (i : Fin n) (f : α → α) (m : α → β) (h : m (f v[i]) = m v[i]) :
    (upd v i f).map m = v.map m := by
  apply Vector.ext
  intro j hj
  simp only [Vector.getElem_map]
  have e := upd_get v i ⟨j, hj⟩ f
  dsimp only at e
  rw [e]
  split
  · next hji => subst hji; exact h
  · rfl

/-! ## raise -/

/-- raise leaves arms as it was. -/
@[simp] theorem raise_arms (k : EventKind) (L : Live) : (raise k L).arms = L.arms := rfl

/-- raise leaves links as it was. -/
@[simp] theorem raise_links (k : EventKind) (L : Live) : (raise k L).links = L.links := rfl

/-- raise leaves docks as it was. -/
@[simp] theorem raise_docks (k : EventKind) (L : Live) : (raise k L).docks = L.docks := rfl

/-- raise leaves cards as it was. -/
@[simp] theorem raise_cards (k : EventKind) (L : Live) : (raise k L).cards = L.cards := rfl

/-- raise leaves queries as it was. -/
@[simp] theorem raise_queries (k : EventKind) (L : Live) : (raise k L).queries = L.queries := rfl

/-- raise leaves releases as it was. -/
@[simp] theorem raise_releases (k : EventKind) (L : Live) : (raise k L).releases = L.releases := rfl

/-- raise leaves remotes as it was. -/
@[simp] theorem raise_remotes (k : EventKind) (L : Live) : (raise k L).remotes = L.remotes := rfl

/-- raise leaves closing as it was. -/
@[simp] theorem raise_closing (k : EventKind) (L : Live) : (raise k L).closing = L.closing := rfl

/-- raise leaves journal as it was. -/
@[simp] theorem raise_journal (k : EventKind) (L : Live) : (raise k L).journal = L.journal := rfl

/-- raise leaves fill as it was. -/
@[simp] theorem raise_fill (k : EventKind) (L : Live) : (raise k L).fill = L.fill := rfl

/-- raise leaves fillState as it was. -/
@[simp] theorem raise_fillState (k : EventKind) (L : Live) : (raise k L).fillState = L.fillState := rfl

/-- raise leaves visit as it was. -/
@[simp] theorem raise_visit (k : EventKind) (L : Live) : (raise k L).visit = L.visit := rfl

/-- raise leaves crew as it was. -/
@[simp] theorem raise_crew (k : EventKind) (L : Live) : (raise k L).crew = L.crew := rfl

/-- raise leaves faults as it was. -/
@[simp] theorem raise_faults (k : EventKind) (L : Live) : (raise k L).faults = L.faults := rfl

/-- raise leaves nextFault as it was. -/
@[simp] theorem raise_nextFault (k : EventKind) (L : Live) : (raise k L).nextFault = L.nextFault := rfl

/-- raise leaves counters as it was. -/
@[simp] theorem raise_counters (k : EventKind) (L : Live) : (raise k L).counters = L.counters := rfl

/-- raise leaves power as it was. -/
@[simp] theorem raise_power (k : EventKind) (L : Live) : (raise k L).power = L.power := rfl

/-- raise leaves clock as it was. -/
@[simp] theorem raise_clock (k : EventKind) (L : Live) : (raise k L).clock = L.clock := rfl

/-- raise leaves port as it was. -/
@[simp] theorem raise_port (k : EventKind) (L : Live) : (raise k L).port = L.port := rfl

/-- raise leaves boot as it was. -/
@[simp] theorem raise_boot (k : EventKind) (L : Live) : (raise k L).boot = L.boot := rfl

/-- raise leaves powered as it was. -/
@[simp] theorem raise_powered (k : EventKind) (L : Live) : (raise k L).powered = L.powered := rfl

/-- raise leaves storeValid as it was. -/
@[simp] theorem raise_storeValid (k : EventKind) (L : Live) : (raise k L).storeValid = L.storeValid := rfl

/-! ## updArm -/

/-- updArm leaves links as it was. -/
@[simp] theorem updArm_links (a : Arm) (f : ArmRec → ArmRec) (L : Live) : (updArm a f L).links = L.links := rfl

/-- updArm leaves docks as it was. -/
@[simp] theorem updArm_docks (a : Arm) (f : ArmRec → ArmRec) (L : Live) : (updArm a f L).docks = L.docks := rfl

/-- updArm leaves cards as it was. -/
@[simp] theorem updArm_cards (a : Arm) (f : ArmRec → ArmRec) (L : Live) : (updArm a f L).cards = L.cards := rfl

/-- updArm leaves queries as it was. -/
@[simp] theorem updArm_queries (a : Arm) (f : ArmRec → ArmRec) (L : Live) : (updArm a f L).queries = L.queries := rfl

/-- updArm leaves releases as it was. -/
@[simp] theorem updArm_releases (a : Arm) (f : ArmRec → ArmRec) (L : Live) : (updArm a f L).releases = L.releases := rfl

/-- updArm leaves remotes as it was. -/
@[simp] theorem updArm_remotes (a : Arm) (f : ArmRec → ArmRec) (L : Live) : (updArm a f L).remotes = L.remotes := rfl

/-- updArm leaves closing as it was. -/
@[simp] theorem updArm_closing (a : Arm) (f : ArmRec → ArmRec) (L : Live) : (updArm a f L).closing = L.closing := rfl

/-- updArm leaves journal as it was. -/
@[simp] theorem updArm_journal (a : Arm) (f : ArmRec → ArmRec) (L : Live) : (updArm a f L).journal = L.journal := rfl

/-- updArm leaves fill as it was. -/
@[simp] theorem updArm_fill (a : Arm) (f : ArmRec → ArmRec) (L : Live) : (updArm a f L).fill = L.fill := rfl

/-- updArm leaves fillState as it was. -/
@[simp] theorem updArm_fillState (a : Arm) (f : ArmRec → ArmRec) (L : Live) : (updArm a f L).fillState = L.fillState := rfl

/-- updArm leaves visit as it was. -/
@[simp] theorem updArm_visit (a : Arm) (f : ArmRec → ArmRec) (L : Live) : (updArm a f L).visit = L.visit := rfl

/-- updArm leaves crew as it was. -/
@[simp] theorem updArm_crew (a : Arm) (f : ArmRec → ArmRec) (L : Live) : (updArm a f L).crew = L.crew := rfl

/-- updArm leaves faults as it was. -/
@[simp] theorem updArm_faults (a : Arm) (f : ArmRec → ArmRec) (L : Live) : (updArm a f L).faults = L.faults := rfl

/-- updArm leaves nextFault as it was. -/
@[simp] theorem updArm_nextFault (a : Arm) (f : ArmRec → ArmRec) (L : Live) : (updArm a f L).nextFault = L.nextFault := rfl

/-- updArm leaves counters as it was. -/
@[simp] theorem updArm_counters (a : Arm) (f : ArmRec → ArmRec) (L : Live) : (updArm a f L).counters = L.counters := rfl

/-- updArm leaves power as it was. -/
@[simp] theorem updArm_power (a : Arm) (f : ArmRec → ArmRec) (L : Live) : (updArm a f L).power = L.power := rfl

/-- updArm leaves clock as it was. -/
@[simp] theorem updArm_clock (a : Arm) (f : ArmRec → ArmRec) (L : Live) : (updArm a f L).clock = L.clock := rfl

/-- updArm leaves attention as it was. -/
@[simp] theorem updArm_attention (a : Arm) (f : ArmRec → ArmRec) (L : Live) : (updArm a f L).attention = L.attention := rfl

/-- updArm leaves port as it was. -/
@[simp] theorem updArm_port (a : Arm) (f : ArmRec → ArmRec) (L : Live) : (updArm a f L).port = L.port := rfl

/-- updArm leaves boot as it was. -/
@[simp] theorem updArm_boot (a : Arm) (f : ArmRec → ArmRec) (L : Live) : (updArm a f L).boot = L.boot := rfl

/-- updArm leaves powered as it was. -/
@[simp] theorem updArm_powered (a : Arm) (f : ArmRec → ArmRec) (L : Live) : (updArm a f L).powered = L.powered := rfl

/-- updArm leaves storeValid as it was. -/
@[simp] theorem updArm_storeValid (a : Arm) (f : ArmRec → ArmRec) (L : Live) : (updArm a f L).storeValid = L.storeValid := rfl

/-! ## updLink -/

/-- updLink leaves arms as it was. -/
@[simp] theorem updLink_arms (p : Pos) (f : LinkRec → LinkRec) (L : Live) : (updLink p f L).arms = L.arms := rfl

/-- updLink leaves docks as it was. -/
@[simp] theorem updLink_docks (p : Pos) (f : LinkRec → LinkRec) (L : Live) : (updLink p f L).docks = L.docks := rfl

/-- updLink leaves cards as it was. -/
@[simp] theorem updLink_cards (p : Pos) (f : LinkRec → LinkRec) (L : Live) : (updLink p f L).cards = L.cards := rfl

/-- updLink leaves queries as it was. -/
@[simp] theorem updLink_queries (p : Pos) (f : LinkRec → LinkRec) (L : Live) : (updLink p f L).queries = L.queries := rfl

/-- updLink leaves releases as it was. -/
@[simp] theorem updLink_releases (p : Pos) (f : LinkRec → LinkRec) (L : Live) : (updLink p f L).releases = L.releases := rfl

/-- updLink leaves remotes as it was. -/
@[simp] theorem updLink_remotes (p : Pos) (f : LinkRec → LinkRec) (L : Live) : (updLink p f L).remotes = L.remotes := rfl

/-- updLink leaves closing as it was. -/
@[simp] theorem updLink_closing (p : Pos) (f : LinkRec → LinkRec) (L : Live) : (updLink p f L).closing = L.closing := rfl

/-- updLink leaves journal as it was. -/
@[simp] theorem updLink_journal (p : Pos) (f : LinkRec → LinkRec) (L : Live) : (updLink p f L).journal = L.journal := rfl

/-- updLink leaves fill as it was. -/
@[simp] theorem updLink_fill (p : Pos) (f : LinkRec → LinkRec) (L : Live) : (updLink p f L).fill = L.fill := rfl

/-- updLink leaves fillState as it was. -/
@[simp] theorem updLink_fillState (p : Pos) (f : LinkRec → LinkRec) (L : Live) : (updLink p f L).fillState = L.fillState := rfl

/-- updLink leaves visit as it was. -/
@[simp] theorem updLink_visit (p : Pos) (f : LinkRec → LinkRec) (L : Live) : (updLink p f L).visit = L.visit := rfl

/-- updLink leaves crew as it was. -/
@[simp] theorem updLink_crew (p : Pos) (f : LinkRec → LinkRec) (L : Live) : (updLink p f L).crew = L.crew := rfl

/-- updLink leaves faults as it was. -/
@[simp] theorem updLink_faults (p : Pos) (f : LinkRec → LinkRec) (L : Live) : (updLink p f L).faults = L.faults := rfl

/-- updLink leaves nextFault as it was. -/
@[simp] theorem updLink_nextFault (p : Pos) (f : LinkRec → LinkRec) (L : Live) : (updLink p f L).nextFault = L.nextFault := rfl

/-- updLink leaves counters as it was. -/
@[simp] theorem updLink_counters (p : Pos) (f : LinkRec → LinkRec) (L : Live) : (updLink p f L).counters = L.counters := rfl

/-- updLink leaves power as it was. -/
@[simp] theorem updLink_power (p : Pos) (f : LinkRec → LinkRec) (L : Live) : (updLink p f L).power = L.power := rfl

/-- updLink leaves clock as it was. -/
@[simp] theorem updLink_clock (p : Pos) (f : LinkRec → LinkRec) (L : Live) : (updLink p f L).clock = L.clock := rfl

/-- updLink leaves attention as it was. -/
@[simp] theorem updLink_attention (p : Pos) (f : LinkRec → LinkRec) (L : Live) : (updLink p f L).attention = L.attention := rfl

/-- updLink leaves port as it was. -/
@[simp] theorem updLink_port (p : Pos) (f : LinkRec → LinkRec) (L : Live) : (updLink p f L).port = L.port := rfl

/-- updLink leaves boot as it was. -/
@[simp] theorem updLink_boot (p : Pos) (f : LinkRec → LinkRec) (L : Live) : (updLink p f L).boot = L.boot := rfl

/-- updLink leaves powered as it was. -/
@[simp] theorem updLink_powered (p : Pos) (f : LinkRec → LinkRec) (L : Live) : (updLink p f L).powered = L.powered := rfl

/-- updLink leaves storeValid as it was. -/
@[simp] theorem updLink_storeValid (p : Pos) (f : LinkRec → LinkRec) (L : Live) : (updLink p f L).storeValid = L.storeValid := rfl

/-! ## noteDock -/

/-- noteDock leaves arms as it was. -/
@[simp] theorem noteDock_arms (p : Pos) (f : DockRec → DockRec) (L : Live) : (noteDock p f L).arms = L.arms := rfl

/-- noteDock leaves links as it was. -/
@[simp] theorem noteDock_links (p : Pos) (f : DockRec → DockRec) (L : Live) : (noteDock p f L).links = L.links := rfl

/-- noteDock leaves cards as it was. -/
@[simp] theorem noteDock_cards (p : Pos) (f : DockRec → DockRec) (L : Live) : (noteDock p f L).cards = L.cards := rfl

/-- noteDock leaves queries as it was. -/
@[simp] theorem noteDock_queries (p : Pos) (f : DockRec → DockRec) (L : Live) : (noteDock p f L).queries = L.queries := rfl

/-- noteDock leaves releases as it was. -/
@[simp] theorem noteDock_releases (p : Pos) (f : DockRec → DockRec) (L : Live) : (noteDock p f L).releases = L.releases := rfl

/-- noteDock leaves remotes as it was. -/
@[simp] theorem noteDock_remotes (p : Pos) (f : DockRec → DockRec) (L : Live) : (noteDock p f L).remotes = L.remotes := rfl

/-- noteDock leaves closing as it was. -/
@[simp] theorem noteDock_closing (p : Pos) (f : DockRec → DockRec) (L : Live) : (noteDock p f L).closing = L.closing := rfl

/-- noteDock leaves journal as it was. -/
@[simp] theorem noteDock_journal (p : Pos) (f : DockRec → DockRec) (L : Live) : (noteDock p f L).journal = L.journal := rfl

/-- noteDock leaves fill as it was. -/
@[simp] theorem noteDock_fill (p : Pos) (f : DockRec → DockRec) (L : Live) : (noteDock p f L).fill = L.fill := rfl

/-- noteDock leaves fillState as it was. -/
@[simp] theorem noteDock_fillState (p : Pos) (f : DockRec → DockRec) (L : Live) : (noteDock p f L).fillState = L.fillState := rfl

/-- noteDock leaves visit as it was. -/
@[simp] theorem noteDock_visit (p : Pos) (f : DockRec → DockRec) (L : Live) : (noteDock p f L).visit = L.visit := rfl

/-- noteDock leaves crew as it was. -/
@[simp] theorem noteDock_crew (p : Pos) (f : DockRec → DockRec) (L : Live) : (noteDock p f L).crew = L.crew := rfl

/-- noteDock leaves faults as it was. -/
@[simp] theorem noteDock_faults (p : Pos) (f : DockRec → DockRec) (L : Live) : (noteDock p f L).faults = L.faults := rfl

/-- noteDock leaves nextFault as it was. -/
@[simp] theorem noteDock_nextFault (p : Pos) (f : DockRec → DockRec) (L : Live) : (noteDock p f L).nextFault = L.nextFault := rfl

/-- noteDock leaves counters as it was. -/
@[simp] theorem noteDock_counters (p : Pos) (f : DockRec → DockRec) (L : Live) : (noteDock p f L).counters = L.counters := rfl

/-- noteDock leaves power as it was. -/
@[simp] theorem noteDock_power (p : Pos) (f : DockRec → DockRec) (L : Live) : (noteDock p f L).power = L.power := rfl

/-- noteDock leaves clock as it was. -/
@[simp] theorem noteDock_clock (p : Pos) (f : DockRec → DockRec) (L : Live) : (noteDock p f L).clock = L.clock := rfl

/-- noteDock leaves attention as it was. -/
@[simp] theorem noteDock_attention (p : Pos) (f : DockRec → DockRec) (L : Live) : (noteDock p f L).attention = L.attention := rfl

/-- noteDock leaves port as it was. -/
@[simp] theorem noteDock_port (p : Pos) (f : DockRec → DockRec) (L : Live) : (noteDock p f L).port = L.port := rfl

/-- noteDock leaves boot as it was. -/
@[simp] theorem noteDock_boot (p : Pos) (f : DockRec → DockRec) (L : Live) : (noteDock p f L).boot = L.boot := rfl

/-- noteDock leaves powered as it was. -/
@[simp] theorem noteDock_powered (p : Pos) (f : DockRec → DockRec) (L : Live) : (noteDock p f L).powered = L.powered := rfl

/-- noteDock leaves storeValid as it was. -/
@[simp] theorem noteDock_storeValid (p : Pos) (f : DockRec → DockRec) (L : Live) : (noteDock p f L).storeValid = L.storeValid := rfl

/-! ## refill -/

/-- refill leaves arms as it was. -/
@[simp] theorem refill_arms (g : Setup) (L : Live) : (refill g L).arms = L.arms := by
  unfold refill; dsimp only; split <;> rfl

/-- refill leaves links as it was. -/
@[simp] theorem refill_links (g : Setup) (L : Live) : (refill g L).links = L.links := by
  unfold refill; dsimp only; split <;> rfl

/-- refill leaves docks as it was. -/
@[simp] theorem refill_docks (g : Setup) (L : Live) : (refill g L).docks = L.docks := by
  unfold refill; dsimp only; split <;> rfl

/-- refill leaves cards as it was. -/
@[simp] theorem refill_cards (g : Setup) (L : Live) : (refill g L).cards = L.cards := by
  unfold refill; dsimp only; split <;> rfl

/-- refill leaves queries as it was. -/
@[simp] theorem refill_queries (g : Setup) (L : Live) : (refill g L).queries = L.queries := by
  unfold refill; dsimp only; split <;> rfl

/-- refill leaves releases as it was. -/
@[simp] theorem refill_releases (g : Setup) (L : Live) : (refill g L).releases = L.releases := by
  unfold refill; dsimp only; split <;> rfl

/-- refill leaves remotes as it was. -/
@[simp] theorem refill_remotes (g : Setup) (L : Live) : (refill g L).remotes = L.remotes := by
  unfold refill; dsimp only; split <;> rfl

/-- refill leaves closing as it was. -/
@[simp] theorem refill_closing (g : Setup) (L : Live) : (refill g L).closing = L.closing := by
  unfold refill; dsimp only; split <;> rfl

/-- refill leaves journal as it was. -/
@[simp] theorem refill_journal (g : Setup) (L : Live) : (refill g L).journal = L.journal := by
  unfold refill; dsimp only; split <;> rfl

/-- refill leaves visit as it was. -/
@[simp] theorem refill_visit (g : Setup) (L : Live) : (refill g L).visit = L.visit := by
  unfold refill; dsimp only; split <;> rfl

/-- refill leaves crew as it was. -/
@[simp] theorem refill_crew (g : Setup) (L : Live) : (refill g L).crew = L.crew := by
  unfold refill; dsimp only; split <;> rfl

/-- refill leaves faults as it was. -/
@[simp] theorem refill_faults (g : Setup) (L : Live) : (refill g L).faults = L.faults := by
  unfold refill; dsimp only; split <;> rfl

/-- refill leaves nextFault as it was. -/
@[simp] theorem refill_nextFault (g : Setup) (L : Live) : (refill g L).nextFault = L.nextFault := by
  unfold refill; dsimp only; split <;> rfl

/-- refill leaves counters as it was. -/
@[simp] theorem refill_counters (g : Setup) (L : Live) : (refill g L).counters = L.counters := by
  unfold refill; dsimp only; split <;> rfl

/-- refill leaves power as it was. -/
@[simp] theorem refill_power (g : Setup) (L : Live) : (refill g L).power = L.power := by
  unfold refill; dsimp only; split <;> rfl

/-- refill leaves clock as it was. -/
@[simp] theorem refill_clock (g : Setup) (L : Live) : (refill g L).clock = L.clock := by
  unfold refill; dsimp only; split <;> rfl

/-- refill leaves port as it was. -/
@[simp] theorem refill_port (g : Setup) (L : Live) : (refill g L).port = L.port := by
  unfold refill; dsimp only; split <;> rfl

/-- refill leaves boot as it was. -/
@[simp] theorem refill_boot (g : Setup) (L : Live) : (refill g L).boot = L.boot := by
  unfold refill; dsimp only; split <;> rfl

/-- refill leaves powered as it was. -/
@[simp] theorem refill_powered (g : Setup) (L : Live) : (refill g L).powered = L.powered := by
  unfold refill; dsimp only; split <;> rfl

/-- refill leaves storeValid as it was. -/
@[simp] theorem refill_storeValid (g : Setup) (L : Live) : (refill g L).storeValid = L.storeValid := by
  unfold refill; dsimp only; split <;> rfl

/-! ## updDock -/

/-- updDock leaves arms as it was. -/
@[simp] theorem updDock_arms (g : Setup) (p : Pos) (f : DockRec → DockRec) (L : Live) : (updDock g p f L).arms = L.arms := refill_arms _ _

/-- updDock leaves links as it was. -/
@[simp] theorem updDock_links (g : Setup) (p : Pos) (f : DockRec → DockRec) (L : Live) : (updDock g p f L).links = L.links := refill_links _ _

/-- updDock leaves cards as it was. -/
@[simp] theorem updDock_cards (g : Setup) (p : Pos) (f : DockRec → DockRec) (L : Live) : (updDock g p f L).cards = L.cards := refill_cards _ _

/-- updDock leaves queries as it was. -/
@[simp] theorem updDock_queries (g : Setup) (p : Pos) (f : DockRec → DockRec) (L : Live) : (updDock g p f L).queries = L.queries := refill_queries _ _

/-- updDock leaves releases as it was. -/
@[simp] theorem updDock_releases (g : Setup) (p : Pos) (f : DockRec → DockRec) (L : Live) : (updDock g p f L).releases = L.releases := refill_releases _ _

/-- updDock leaves remotes as it was. -/
@[simp] theorem updDock_remotes (g : Setup) (p : Pos) (f : DockRec → DockRec) (L : Live) : (updDock g p f L).remotes = L.remotes := refill_remotes _ _

/-- updDock leaves closing as it was. -/
@[simp] theorem updDock_closing (g : Setup) (p : Pos) (f : DockRec → DockRec) (L : Live) : (updDock g p f L).closing = L.closing := refill_closing _ _

/-- updDock leaves journal as it was. -/
@[simp] theorem updDock_journal (g : Setup) (p : Pos) (f : DockRec → DockRec) (L : Live) : (updDock g p f L).journal = L.journal := refill_journal _ _

/-- updDock leaves visit as it was. -/
@[simp] theorem updDock_visit (g : Setup) (p : Pos) (f : DockRec → DockRec) (L : Live) : (updDock g p f L).visit = L.visit := refill_visit _ _

/-- updDock leaves crew as it was. -/
@[simp] theorem updDock_crew (g : Setup) (p : Pos) (f : DockRec → DockRec) (L : Live) : (updDock g p f L).crew = L.crew := refill_crew _ _

/-- updDock leaves faults as it was. -/
@[simp] theorem updDock_faults (g : Setup) (p : Pos) (f : DockRec → DockRec) (L : Live) : (updDock g p f L).faults = L.faults := refill_faults _ _

/-- updDock leaves nextFault as it was. -/
@[simp] theorem updDock_nextFault (g : Setup) (p : Pos) (f : DockRec → DockRec) (L : Live) : (updDock g p f L).nextFault = L.nextFault := refill_nextFault _ _

/-- updDock leaves counters as it was. -/
@[simp] theorem updDock_counters (g : Setup) (p : Pos) (f : DockRec → DockRec) (L : Live) : (updDock g p f L).counters = L.counters := refill_counters _ _

/-- updDock leaves power as it was. -/
@[simp] theorem updDock_power (g : Setup) (p : Pos) (f : DockRec → DockRec) (L : Live) : (updDock g p f L).power = L.power := refill_power _ _

/-- updDock leaves clock as it was. -/
@[simp] theorem updDock_clock (g : Setup) (p : Pos) (f : DockRec → DockRec) (L : Live) : (updDock g p f L).clock = L.clock := refill_clock _ _

/-- updDock leaves port as it was. -/
@[simp] theorem updDock_port (g : Setup) (p : Pos) (f : DockRec → DockRec) (L : Live) : (updDock g p f L).port = L.port := refill_port _ _

/-- updDock leaves boot as it was. -/
@[simp] theorem updDock_boot (g : Setup) (p : Pos) (f : DockRec → DockRec) (L : Live) : (updDock g p f L).boot = L.boot := refill_boot _ _

/-- updDock leaves powered as it was. -/
@[simp] theorem updDock_powered (g : Setup) (p : Pos) (f : DockRec → DockRec) (L : Live) : (updDock g p f L).powered = L.powered := refill_powered _ _

/-- updDock leaves storeValid as it was. -/
@[simp] theorem updDock_storeValid (g : Setup) (p : Pos) (f : DockRec → DockRec) (L : Live) : (updDock g p f L).storeValid = L.storeValid := refill_storeValid _ _

/-! ## setFaults -/

/-- setFaults leaves arms as it was. -/
@[simp] theorem setFaults_arms (g : Setup) (fs : List FaultRec) (L : Live) : (setFaults g fs L).arms = L.arms := refill_arms _ _

/-- setFaults leaves links as it was. -/
@[simp] theorem setFaults_links (g : Setup) (fs : List FaultRec) (L : Live) : (setFaults g fs L).links = L.links := refill_links _ _

/-- setFaults leaves docks as it was. -/
@[simp] theorem setFaults_docks (g : Setup) (fs : List FaultRec) (L : Live) : (setFaults g fs L).docks = L.docks := refill_docks _ _

/-- setFaults leaves cards as it was. -/
@[simp] theorem setFaults_cards (g : Setup) (fs : List FaultRec) (L : Live) : (setFaults g fs L).cards = L.cards := refill_cards _ _

/-- setFaults leaves queries as it was. -/
@[simp] theorem setFaults_queries (g : Setup) (fs : List FaultRec) (L : Live) : (setFaults g fs L).queries = L.queries := refill_queries _ _

/-- setFaults leaves releases as it was. -/
@[simp] theorem setFaults_releases (g : Setup) (fs : List FaultRec) (L : Live) : (setFaults g fs L).releases = L.releases := refill_releases _ _

/-- setFaults leaves remotes as it was. -/
@[simp] theorem setFaults_remotes (g : Setup) (fs : List FaultRec) (L : Live) : (setFaults g fs L).remotes = L.remotes := refill_remotes _ _

/-- setFaults leaves closing as it was. -/
@[simp] theorem setFaults_closing (g : Setup) (fs : List FaultRec) (L : Live) : (setFaults g fs L).closing = L.closing := refill_closing _ _

/-- setFaults leaves journal as it was. -/
@[simp] theorem setFaults_journal (g : Setup) (fs : List FaultRec) (L : Live) : (setFaults g fs L).journal = L.journal := refill_journal _ _

/-- setFaults leaves visit as it was. -/
@[simp] theorem setFaults_visit (g : Setup) (fs : List FaultRec) (L : Live) : (setFaults g fs L).visit = L.visit := refill_visit _ _

/-- setFaults leaves crew as it was. -/
@[simp] theorem setFaults_crew (g : Setup) (fs : List FaultRec) (L : Live) : (setFaults g fs L).crew = L.crew := refill_crew _ _

/-- setFaults leaves nextFault as it was. -/
@[simp] theorem setFaults_nextFault (g : Setup) (fs : List FaultRec) (L : Live) : (setFaults g fs L).nextFault = L.nextFault := refill_nextFault _ _

/-- setFaults leaves counters as it was. -/
@[simp] theorem setFaults_counters (g : Setup) (fs : List FaultRec) (L : Live) : (setFaults g fs L).counters = L.counters := refill_counters _ _

/-- setFaults leaves power as it was. -/
@[simp] theorem setFaults_power (g : Setup) (fs : List FaultRec) (L : Live) : (setFaults g fs L).power = L.power := refill_power _ _

/-- setFaults leaves clock as it was. -/
@[simp] theorem setFaults_clock (g : Setup) (fs : List FaultRec) (L : Live) : (setFaults g fs L).clock = L.clock := refill_clock _ _

/-- setFaults leaves port as it was. -/
@[simp] theorem setFaults_port (g : Setup) (fs : List FaultRec) (L : Live) : (setFaults g fs L).port = L.port := refill_port _ _

/-- setFaults leaves boot as it was. -/
@[simp] theorem setFaults_boot (g : Setup) (fs : List FaultRec) (L : Live) : (setFaults g fs L).boot = L.boot := refill_boot _ _

/-- setFaults leaves powered as it was. -/
@[simp] theorem setFaults_powered (g : Setup) (fs : List FaultRec) (L : Live) : (setFaults g fs L).powered = L.powered := refill_powered _ _

/-- setFaults leaves storeValid as it was. -/
@[simp] theorem setFaults_storeValid (g : Setup) (fs : List FaultRec) (L : Live) : (setFaults g fs L).storeValid = L.storeValid := refill_storeValid _ _

/-! ## setArmState -/

/-- setArmState leaves links as it was. -/
@[simp] theorem setArmState_links (g : Setup) (a : Arm) (st : ArmState) (L : Live) : (setArmState g a st L).links = L.links := refill_links _ _

/-- setArmState leaves docks as it was. -/
@[simp] theorem setArmState_docks (g : Setup) (a : Arm) (st : ArmState) (L : Live) : (setArmState g a st L).docks = L.docks := refill_docks _ _

/-- setArmState leaves cards as it was. -/
@[simp] theorem setArmState_cards (g : Setup) (a : Arm) (st : ArmState) (L : Live) : (setArmState g a st L).cards = L.cards := refill_cards _ _

/-- setArmState leaves queries as it was. -/
@[simp] theorem setArmState_queries (g : Setup) (a : Arm) (st : ArmState) (L : Live) : (setArmState g a st L).queries = L.queries := refill_queries _ _

/-- setArmState leaves releases as it was. -/
@[simp] theorem setArmState_releases (g : Setup) (a : Arm) (st : ArmState) (L : Live) : (setArmState g a st L).releases = L.releases := refill_releases _ _

/-- setArmState leaves remotes as it was. -/
@[simp] theorem setArmState_remotes (g : Setup) (a : Arm) (st : ArmState) (L : Live) : (setArmState g a st L).remotes = L.remotes := refill_remotes _ _

/-- setArmState leaves closing as it was. -/
@[simp] theorem setArmState_closing (g : Setup) (a : Arm) (st : ArmState) (L : Live) : (setArmState g a st L).closing = L.closing := refill_closing _ _

/-- setArmState leaves journal as it was. -/
@[simp] theorem setArmState_journal (g : Setup) (a : Arm) (st : ArmState) (L : Live) : (setArmState g a st L).journal = L.journal := refill_journal _ _

/-- setArmState leaves visit as it was. -/
@[simp] theorem setArmState_visit (g : Setup) (a : Arm) (st : ArmState) (L : Live) : (setArmState g a st L).visit = L.visit := refill_visit _ _

/-- setArmState leaves crew as it was. -/
@[simp] theorem setArmState_crew (g : Setup) (a : Arm) (st : ArmState) (L : Live) : (setArmState g a st L).crew = L.crew := refill_crew _ _

/-- setArmState leaves faults as it was. -/
@[simp] theorem setArmState_faults (g : Setup) (a : Arm) (st : ArmState) (L : Live) : (setArmState g a st L).faults = L.faults := refill_faults _ _

/-- setArmState leaves nextFault as it was. -/
@[simp] theorem setArmState_nextFault (g : Setup) (a : Arm) (st : ArmState) (L : Live) : (setArmState g a st L).nextFault = L.nextFault := refill_nextFault _ _

/-- setArmState leaves counters as it was. -/
@[simp] theorem setArmState_counters (g : Setup) (a : Arm) (st : ArmState) (L : Live) : (setArmState g a st L).counters = L.counters := refill_counters _ _

/-- setArmState leaves power as it was. -/
@[simp] theorem setArmState_power (g : Setup) (a : Arm) (st : ArmState) (L : Live) : (setArmState g a st L).power = L.power := refill_power _ _

/-- setArmState leaves clock as it was. -/
@[simp] theorem setArmState_clock (g : Setup) (a : Arm) (st : ArmState) (L : Live) : (setArmState g a st L).clock = L.clock := refill_clock _ _

/-- setArmState leaves port as it was. -/
@[simp] theorem setArmState_port (g : Setup) (a : Arm) (st : ArmState) (L : Live) : (setArmState g a st L).port = L.port := refill_port _ _

/-- setArmState leaves boot as it was. -/
@[simp] theorem setArmState_boot (g : Setup) (a : Arm) (st : ArmState) (L : Live) : (setArmState g a st L).boot = L.boot := refill_boot _ _

/-- setArmState leaves powered as it was. -/
@[simp] theorem setArmState_powered (g : Setup) (a : Arm) (st : ArmState) (L : Live) : (setArmState g a st L).powered = L.powered := refill_powered _ _

/-- setArmState leaves storeValid as it was. -/
@[simp] theorem setArmState_storeValid (g : Setup) (a : Arm) (st : ArmState) (L : Live) : (setArmState g a st L).storeValid = L.storeValid := refill_storeValid _ _

/-! ## append -/

/-- append leaves arms as it was. -/
@[simp] theorem append_arms (w : Stamped) (s : Subject) (b : JournalBody) (L : Live) : (append w s b L).arms = L.arms := rfl

/-- append leaves links as it was. -/
@[simp] theorem append_links (w : Stamped) (s : Subject) (b : JournalBody) (L : Live) : (append w s b L).links = L.links := rfl

/-- append leaves docks as it was. -/
@[simp] theorem append_docks (w : Stamped) (s : Subject) (b : JournalBody) (L : Live) : (append w s b L).docks = L.docks := rfl

/-- append leaves cards as it was. -/
@[simp] theorem append_cards (w : Stamped) (s : Subject) (b : JournalBody) (L : Live) : (append w s b L).cards = L.cards := rfl

/-- append leaves queries as it was. -/
@[simp] theorem append_queries (w : Stamped) (s : Subject) (b : JournalBody) (L : Live) : (append w s b L).queries = L.queries := rfl

/-- append leaves releases as it was. -/
@[simp] theorem append_releases (w : Stamped) (s : Subject) (b : JournalBody) (L : Live) : (append w s b L).releases = L.releases := rfl

/-- append leaves remotes as it was. -/
@[simp] theorem append_remotes (w : Stamped) (s : Subject) (b : JournalBody) (L : Live) : (append w s b L).remotes = L.remotes := rfl

/-- append leaves closing as it was. -/
@[simp] theorem append_closing (w : Stamped) (s : Subject) (b : JournalBody) (L : Live) : (append w s b L).closing = L.closing := rfl

/-- append leaves fill as it was. -/
@[simp] theorem append_fill (w : Stamped) (s : Subject) (b : JournalBody) (L : Live) : (append w s b L).fill = L.fill := rfl

/-- append leaves fillState as it was. -/
@[simp] theorem append_fillState (w : Stamped) (s : Subject) (b : JournalBody) (L : Live) : (append w s b L).fillState = L.fillState := rfl

/-- append leaves visit as it was. -/
@[simp] theorem append_visit (w : Stamped) (s : Subject) (b : JournalBody) (L : Live) : (append w s b L).visit = L.visit := rfl

/-- append leaves crew as it was. -/
@[simp] theorem append_crew (w : Stamped) (s : Subject) (b : JournalBody) (L : Live) : (append w s b L).crew = L.crew := rfl

/-- append leaves faults as it was. -/
@[simp] theorem append_faults (w : Stamped) (s : Subject) (b : JournalBody) (L : Live) : (append w s b L).faults = L.faults := rfl

/-- append leaves nextFault as it was. -/
@[simp] theorem append_nextFault (w : Stamped) (s : Subject) (b : JournalBody) (L : Live) : (append w s b L).nextFault = L.nextFault := rfl

/-- append leaves counters as it was. -/
@[simp] theorem append_counters (w : Stamped) (s : Subject) (b : JournalBody) (L : Live) : (append w s b L).counters = L.counters := rfl

/-- append leaves power as it was. -/
@[simp] theorem append_power (w : Stamped) (s : Subject) (b : JournalBody) (L : Live) : (append w s b L).power = L.power := rfl

/-- append leaves clock as it was. -/
@[simp] theorem append_clock (w : Stamped) (s : Subject) (b : JournalBody) (L : Live) : (append w s b L).clock = L.clock := rfl

/-- append leaves port as it was. -/
@[simp] theorem append_port (w : Stamped) (s : Subject) (b : JournalBody) (L : Live) : (append w s b L).port = L.port := rfl

/-- append leaves boot as it was. -/
@[simp] theorem append_boot (w : Stamped) (s : Subject) (b : JournalBody) (L : Live) : (append w s b L).boot = L.boot := rfl

/-- append leaves powered as it was. -/
@[simp] theorem append_powered (w : Stamped) (s : Subject) (b : JournalBody) (L : Live) : (append w s b L).powered = L.powered := rfl

/-- append leaves storeValid as it was. -/
@[simp] theorem append_storeValid (w : Stamped) (s : Subject) (b : JournalBody) (L : Live) : (append w s b L).storeValid = L.storeValid := rfl

/-! ## claim -/

/-- claim leaves arms as it was. -/
@[simp] theorem claim_arms (L : Live) : (claim L).arms = L.arms := rfl

/-- claim leaves links as it was. -/
@[simp] theorem claim_links (L : Live) : (claim L).links = L.links := rfl

/-- claim leaves docks as it was. -/
@[simp] theorem claim_docks (L : Live) : (claim L).docks = L.docks := rfl

/-- claim leaves cards as it was. -/
@[simp] theorem claim_cards (L : Live) : (claim L).cards = L.cards := rfl

/-- claim leaves queries as it was. -/
@[simp] theorem claim_queries (L : Live) : (claim L).queries = L.queries := rfl

/-- claim leaves releases as it was. -/
@[simp] theorem claim_releases (L : Live) : (claim L).releases = L.releases := rfl

/-- claim leaves remotes as it was. -/
@[simp] theorem claim_remotes (L : Live) : (claim L).remotes = L.remotes := rfl

/-- claim leaves closing as it was. -/
@[simp] theorem claim_closing (L : Live) : (claim L).closing = L.closing := rfl

/-- claim leaves fill as it was. -/
@[simp] theorem claim_fill (L : Live) : (claim L).fill = L.fill := rfl

/-- claim leaves fillState as it was. -/
@[simp] theorem claim_fillState (L : Live) : (claim L).fillState = L.fillState := rfl

/-- claim leaves visit as it was. -/
@[simp] theorem claim_visit (L : Live) : (claim L).visit = L.visit := rfl

/-- claim leaves crew as it was. -/
@[simp] theorem claim_crew (L : Live) : (claim L).crew = L.crew := rfl

/-- claim leaves faults as it was. -/
@[simp] theorem claim_faults (L : Live) : (claim L).faults = L.faults := rfl

/-- claim leaves nextFault as it was. -/
@[simp] theorem claim_nextFault (L : Live) : (claim L).nextFault = L.nextFault := rfl

/-- claim leaves counters as it was. -/
@[simp] theorem claim_counters (L : Live) : (claim L).counters = L.counters := rfl

/-- claim leaves power as it was. -/
@[simp] theorem claim_power (L : Live) : (claim L).power = L.power := rfl

/-- claim leaves clock as it was. -/
@[simp] theorem claim_clock (L : Live) : (claim L).clock = L.clock := rfl

/-- claim leaves attention as it was. -/
@[simp] theorem claim_attention (L : Live) : (claim L).attention = L.attention := rfl

/-- claim leaves port as it was. -/
@[simp] theorem claim_port (L : Live) : (claim L).port = L.port := rfl

/-- claim leaves boot as it was. -/
@[simp] theorem claim_boot (L : Live) : (claim L).boot = L.boot := rfl

/-- claim leaves powered as it was. -/
@[simp] theorem claim_powered (L : Live) : (claim L).powered = L.powered := rfl

/-- claim leaves storeValid as it was. -/
@[simp] theorem claim_storeValid (L : Live) : (claim L).storeValid = L.storeValid := rfl

/-! ## What the updates write -/

/-- The docks after a noted change. -/
@[simp] theorem noteDock_docks (p : Pos) (f : DockRec → DockRec) (L : Live) :
    (noteDock p f L).docks = upd L.docks p f := rfl

/-- The docks after a change of record. -/
@[simp] theorem updDock_docks (g : Setup) (p : Pos) (f : DockRec → DockRec) (L : Live) :
    (updDock g p f L).docks = upd L.docks p f := refill_docks _ _

/-- The arms after a change of an arm's record. -/
@[simp] theorem updArm_arms (a : Arm) (f : ArmRec → ArmRec) (L : Live) : (updArm a f L).arms = upd L.arms a f := rfl

/-- The arms after a change of arm state. -/
@[simp] theorem setArmState_arms (g : Setup) (a : Arm) (st : ArmState) (L : Live) :
    (setArmState g a st L).arms = upd L.arms a fun r => { r with state := st } := refill_arms _ _

/-- The link records after a change of one. -/
@[simp] theorem updLink_links (p : Pos) (f : LinkRec → LinkRec) (L : Live) :
    (updLink p f L).links = upd L.links p f := rfl

/-- The fault list after it is set. -/
@[simp] theorem setFaults_faults (g : Setup) (fs : List FaultRec) (L : Live) : (setFaults g fs L).faults = fs :=
  refill_faults _ _

/-! ## Reading one record -/

/-- An arm's record is read from the arms alone. -/
theorem arm_congr {L M : Live} (h : M.arms = L.arms) (a : Arm) : M.arm a = L.arm a := by simp only [Live.arm, h]

/-- A dock record is read from the docks alone. -/
theorem dock_congr {L M : Live} (h : M.docks = L.docks) (p : Pos) : M.dock p = L.dock p := by simp only [Live.dock, h]

/-- The changed dock record. -/
@[simp] theorem noteDock_dock_same (p : Pos) (f : DockRec → DockRec) (L : Live) :
    (noteDock p f L).dock p = f (L.dock p) := by simp [Live.dock]

/-- Another dock record. -/
theorem noteDock_dock_other {p q : Pos} (f : DockRec → DockRec) (L : Live) (h : q ≠ p) :
    (noteDock p f L).dock q = L.dock q := by simp only [Live.dock, noteDock_docks, Fin.getElem_fin]; exact upd_other _ _ h

/-- The changed dock record. -/
@[simp] theorem updDock_dock_same (g : Setup) (p : Pos) (f : DockRec → DockRec) (L : Live) :
    (updDock g p f L).dock p = f (L.dock p) := by simp [Live.dock]

/-- Another dock record. -/
theorem updDock_dock_other (g : Setup) {p q : Pos} (f : DockRec → DockRec) (L : Live) (h : q ≠ p) :
    (updDock g p f L).dock q = L.dock q := by simp only [Live.dock, updDock_docks, Fin.getElem_fin]; exact upd_other _ _ h

/-- The changed arm record. -/
@[simp] theorem updArm_arm_same (a : Arm) (f : ArmRec → ArmRec) (L : Live) : (updArm a f L).arm a = f (L.arm a) := by
  simp [Live.arm]

/-- Another arm record. -/
theorem updArm_arm_other {a b : Arm} (f : ArmRec → ArmRec) (L : Live) (h : b ≠ a) :
    (updArm a f L).arm b = L.arm b := by simp only [Live.arm, updArm_arms, Fin.getElem_fin]; exact upd_other _ _ h

/-- The changed arm's state. -/
@[simp] theorem setArmState_arm_same (g : Setup) (a : Arm) (st : ArmState) (L : Live) :
    (setArmState g a st L).arm a = { L.arm a with state := st } := by simp [Live.arm]

/-- The changed link record. -/
@[simp] theorem updLink_link_same (p : Pos) (f : LinkRec → LinkRec) (L : Live) :
    (updLink p f L).link p = f (L.link p) := by simp [Live.link]

/-- Another link record. -/
theorem updLink_link_other {p q : Pos} (f : LinkRec → LinkRec) (L : Live) (h : q ≠ p) :
    (updLink p f L).link q = L.link q := by simp only [Live.link, updLink_links, Fin.getElem_fin]; exact upd_other _ _ h

/-- The link records are read from the links alone. -/
@[simp] theorem updArm_link (a : Arm) (f : ArmRec → ArmRec) (L : Live) (p : Pos) :
    (updArm a f L).link p = L.link p := rfl

/-- An arm's change leaves the dock records. -/
@[simp] theorem updArm_dock (a : Arm) (f : ArmRec → ArmRec) (L : Live) (p : Pos) :
    (updArm a f L).dock p = L.dock p := rfl

/-- A link record's change leaves the dock records. -/
@[simp] theorem updLink_dock (p : Pos) (f : LinkRec → LinkRec) (L : Live) (q : Pos) :
    (updLink p f L).dock q = L.dock q := rfl

/-- A link record's change leaves the arms. -/
@[simp] theorem updLink_arm (p : Pos) (f : LinkRec → LinkRec) (L : Live) (a : Arm) :
    (updLink p f L).arm a = L.arm a := rfl

/-! ## What the shared operations do -/

/-- Raising a kind makes it present and raises its count by one, wrapping (R200). -/
theorem raise_spec (k : EventKind) (L : Live) :
    (raise k L).attention[k.idx.val] = { pending := true, count := L.attention[k.idx.val].count + 1 } := by simp [raise]

/-- Raising a kind leaves every other kind (R200). -/
theorem raise_other {k j : EventKind} (L : Live) (h : j.idx ≠ k.idx) :
    (raise k L).attention[j.idx.val] = L.attention[j.idx.val] := upd_other _ _ h

/-- The recomputation leaves fill counts that agree with the records (R129). -/
@[simp] theorem refill_fill (g : Setup) (L : Live) : (refill g L).fill = countFill L := by
  unfold refill; dsimp only; split <;> rfl

/-- The recomputation leaves the fill state of the band and the counts (R131). -/
@[simp] theorem refill_fillState (g : Setup) (L : Live) :
    (refill g L).fillState = fillStateOf g (countFill L).hireable := by
  unfold refill; dsimp only; split <;> rfl

/-- An append puts the record at the newest end under the next number (R113, R119). -/
@[simp] theorem append_journal (w : Stamped) (s : Subject) (b : JournalBody) (L : Live) :
    (append w s b L).journal =
      { L.journal with
        ring := L.journal.ring ++ [{ seq := L.journal.lastIssued + 1, at_ := w, subject := s, body := b }]
        lastIssued := L.journal.lastIssued + 1 } := rfl

end Sys2Proof.Machine
end

