-- ==== Sys2Proof/Laws/Still.lean ====
section
/-! SUPPORT. What the blocks of chapters 2 to 8 leave alone, said once: `still` gathers the power sequencer, the clock,
the port, the supply, what the controllers know of arms and positions but for their queues, and the link states. Every
function of the cards, closing list, faults, van, hire and dock files leaves it as it was, but those that change a link
state; `calm` is the part of it that these leave too. -/

namespace Sys2Proof.Machine

/-- An arm's record but for its queue, its command awaiting resending and the power it owes. -/
def armStill (r : ArmRec) : ArmRec := { r with queue := [], resend := none, repower := [] }

/-- The event kinds that the controllers, the power sequencer and a start-up raise: ARM CHANGE, POWER CHANGE, RESTARTED,
COLD START (R200). -/
def EventKind.own : EventKind → Bool
  | .armChange | .powerChange | .restarted | .coldStart => true
  | _ => false

/-- Their flags. -/
def ownFlags (L : Live) : List EventFlag :=
  [L.attention[EventKind.armChange.idx.val], L.attention[EventKind.powerChange.idx.val],
   L.attention[EventKind.restarted.idx.val], L.attention[EventKind.coldStart.idx.val]]

/-- Raising another kind leaves them. -/
theorem ownFlags_raise {k : EventKind} (h : k.own = false) (L : Live) : ownFlags (raise k L) = ownFlags L := by
  have other : ∀ j : EventKind, j.own = true → (raise k L).attention[j.idx.val] = L.attention[j.idx.val] := by
    intro j hj
    refine upd_other _ _ ?_
    cases k <;> cases j <;> simp_all [EventKind.own, EventKind.idx]
  simp only [ownFlags, other .armChange rfl, other .powerChange rfl, other .restarted rfl, other .coldStart rfl]

/-- What identifications and losses leave alone. -/
structure Calm where
  power : Power
  clock : Clock
  port : Port
  boot : Option StartKind
  powered : Bool
  storeValid : Bool
  flags : List EventFlag
  arms : Vector ArmRec 4
deriving DecidableEq, Repr

/-- What every other function of the blocks leaves alone. -/
structure Still where
  calm : Calm
  links : Vector LinkRec 64
  linkStates : Vector LinkState 64
deriving DecidableEq, Repr

/-- The calm part of a state. -/
def calm (L : Live) : Calm :=
  { power := L.power, clock := L.clock, port := L.port, boot := L.boot, powered := L.powered
    storeValid := L.storeValid, flags := ownFlags L, arms := L.arms.map armStill }

/-- The still part of a state. -/
def still (L : Live) : Still := { calm := calm L, links := L.links, linkStates := L.docks.map (·.link) }

/-- What leaves the still part leaves the calm part. -/
theorem calm_of_still {L M : Live} (h : still M = still L) : calm M = calm L := congrArg Still.calm h

/-- A fold of steps that leave the still part. -/
theorem foldl_still {α : Type} (f : Live → α → Live) (h : ∀ M x, still (f M x) = still M) (xs : List α) (L : Live) :
    still (xs.foldl f L) = still L := by
  induction xs generalizing L with
  | nil => rfl
  | cons x xs ih => simp [List.foldl_cons, ih, h]

/-- A fold of steps that leave the calm part. -/
theorem foldl_calm {α : Type} (f : Live → α → Live) (h : ∀ M x, calm (f M x) = calm M) (xs : List α) (L : Live) :
    calm (xs.foldl f L) = calm L := by
  induction xs generalizing L with
  | nil => rfl
  | cons x xs ih => simp [List.foldl_cons, ih, h]

/-! ## Reading the still part -/

/-- An arm's state is in the calm part. -/
theorem calm_arm {L M : Live} (h : calm M = calm L) (a : Arm) : armStill (M.arm a) = armStill (L.arm a) := by
  have := congrArg (fun c => c.arms[a.val]) h
  simpa [calm, Live.arm] using this

/-- An arm's state is in the calm part. -/
theorem calm_state {L M : Live} (h : calm M = calm L) (a : Arm) : (M.arm a).state = (L.arm a).state := by
  have := congrArg (fun r : ArmRec => r.state) (calm_arm h a)
  simpa [armStill] using this

/-- An arm's transaction is in the calm part. -/
theorem calm_txn {L M : Live} (h : calm M = calm L) (a : Arm) : (M.arm a).txn = (L.arm a).txn := by
  have := congrArg (fun r : ArmRec => r.txn) (calm_arm h a)
  simpa [armStill] using this

/-- An arm's line work is in the calm part. -/
theorem calm_work {L M : Live} (h : calm M = calm L) (a : Arm) : (M.arm a).work = (L.arm a).work := by
  have := congrArg (fun r : ArmRec => r.work) (calm_arm h a)
  simpa [armStill] using this

/-- A position's link state is in the still part. -/
theorem still_link {L M : Live} (h : still M = still L) (p : Pos) : (M.dock p).link = (L.dock p).link := by
  have := congrArg (fun c => c.linkStates[p.val]) h
  simpa [still, Live.dock] using this

/-- A position's link record is in the still part. -/
theorem still_linkRec {L M : Live} (h : still M = still L) (p : Pos) : M.link p = L.link p := by
  have : M.links = L.links := congrArg Still.links h
  simp [Live.link, this]

/-! ## Flags and Ops -/

theorem still_raise {k : EventKind} (h : k.own = false) (L : Live) : still (raise k L) = still L := by
  simp only [still, calm, ownFlags_raise h, raise_links, raise_docks, raise_power, raise_clock, raise_port, raise_boot,
    raise_powered, raise_storeValid, raise_arms]

@[simp] theorem still_raise_journalNew (L : Live) : still (raise .journalNew L) = still L := still_raise rfl L
@[simp] theorem still_raise_faultNew (L : Live) : still (raise .faultNew L) = still L := still_raise rfl L
@[simp] theorem still_raise_fillChange (L : Live) : still (raise .fillChange L) = still L := still_raise rfl L
@[simp] theorem still_raise_vanDone (L : Live) : still (raise .vanDone L) = still L := still_raise rfl L
@[simp] theorem still_raise_remoteDone (L : Live) : still (raise .remoteDone L) = still L := still_raise rfl L

@[simp] theorem still_refill (g : Setup) (L : Live) : still (refill g L) = still L := by
  unfold refill; dsimp only; split
  · rfl
  · rw [still_raise_fillChange]; rfl

/-- The flags read the attention set alone. -/
theorem ownFlags_congr {L M : Live} (h : M.attention = L.attention) : ownFlags M = ownFlags L := by
  simp only [ownFlags, h]

/-- The card list is no part of what stands still. -/
@[simp] theorem still_withCards (cs : List CardRec) (L : Live) : still { L with cards := cs } = still L := rfl

theorem still_noteDock (p : Pos) (f : DockRec → DockRec) (L : Live) (h : ∀ d, (f d).link = d.link) :
    still (noteDock p f L) = still L := by
  simp only [still, calm, noteDock_docks, noteDock_links, noteDock_power, noteDock_clock, noteDock_port, noteDock_boot,
    noteDock_powered, noteDock_storeValid, noteDock_arms, ownFlags_congr (noteDock_attention p f L)]
  rw [map_upd _ _ _ _ (h _)]

theorem still_updDock (g : Setup) (p : Pos) (f : DockRec → DockRec) (L : Live) (h : ∀ d, (f d).link = d.link) :
    still (updDock g p f L) = still L := by
  unfold updDock; rw [still_refill]; exact still_noteDock p f L h

theorem still_updArm (a : Arm) (f : ArmRec → ArmRec) (L : Live) (h : ∀ r, armStill (f r) = armStill r) :
    still (updArm a f L) = still L := by
  simp only [still, calm, updArm_arms, updArm_links, updArm_docks, updArm_power, updArm_clock, updArm_port, updArm_boot,
    updArm_powered, updArm_storeValid, ownFlags_congr (updArm_attention a f L)]
  rw [map_upd _ _ _ _ (h _)]

@[simp] theorem still_setFaults (g : Setup) (fs : List FaultRec) (L : Live) : still (setFaults g fs L) = still L := by
  unfold setFaults; rw [still_refill]; rfl

/-! ## Journal and Cards -/

@[simp] theorem still_append (w : Stamped) (s : Subject) (b : JournalBody) (L : Live) :
    still (append w s b L) = still L := by unfold append; rw [still_raise_journalNew]; rfl

@[simp] theorem still_claim (L : Live) : still (claim L) = still L := rfl

@[simp] theorem still_appendClaimed (w : Stamped) (s : Subject) (b : JournalBody) (L : Live) :
    still (appendClaimed w s b L) = still L := by unfold appendClaimed; rw [still_append]; rfl

@[simp] theorem still_moveRecord (p : Pos) (m : Move) (L : Live) : still (moveRecord p m L) = still L :=
  still_append ..

@[simp] theorem still_bikeMove (p : Pos) (r : MoveReason) (b : Option BikeId) (L : Live) :
    still (bikeMove p r b L) = still L := by
  unfold bikeMove; dsimp only; split
  · simp
  · exact still_noteDock _ _ _ fun _ => rfl

@[simp] theorem still_giveBack (c : CardId) (L : Live) : still (giveBack c L) = still L := rfl

theorem still_takeOut {c : CardId} {L M : Live} (h : takeOut? c L = some M) : still M = still L := by
  unfold takeOut? at h
  split at h
  · split at h
    · cases h; rfl
    · cases h
  · cases h

@[simp] theorem still_charge (c : CardId) (n : Money) (L : Live) : still (charge c n L).2 = still L := by
  unfold charge; split
  · split <;> rfl
  · rfl

@[simp] theorem still_passClosedRecord (r : CardRec) (k : Closure) (L : Live) :
    still (passClosedRecord r k L) = still L := still_append ..

@[simp] theorem still_closePass (r : CardRec) (k : ClosureReason) (L : Live) : still (closePass r k L) = still L := by
  unfold closePass; dsimp only; split
  · rw [still_withCards, still_passClosedRecord]
  · rfl

@[simp] theorem still_passCheck (L : Live) : still (passCheck L) = still L := by
  unfold passCheck; split
  · exact foldl_still _ (fun M r => still_closePass r _ M) _ _
  · rfl

@[simp] theorem still_dropQuery (c : CardId) (L : Live) : still (dropQuery c L) = still L := rfl

@[simp] theorem still_dropArmQueries (a : Arm) (L : Live) : still (dropArmQueries a L) = still L := rfl

@[simp] theorem still_tapLookup (g : Setup) (c : CardId) (p : Pos) (L : Live) :
    still (tapLookup g c p L).2 = still L := by
  unfold tapLookup; split
  · rfl
  · split
    · rfl
    · split <;> rfl

/-! ## Queue and Display -/

@[simp] theorem still_enqueue (e : QueueEntry) (L : Live) : still (enqueue e L) = still L :=
  still_updArm _ _ _ fun _ => rfl

@[simp] theorem still_offer (p : Pos) (c : NodeCommand) (i : Issuer) (L : Live) : still (offer p c i L).2 = still L := by
  unfold offer; split <;> simp

theorem still_offer_eq {p : Pos} {c : NodeCommand} {i : Issuer} {L M : Live} {o : Offered}
    (h : offer p c i L = (o, M)) : still M = still L := by
  have := still_offer p c i L
  rw [h] at this; exact this

@[simp] theorem still_offerUnlatch (g : Setup) (p : Pos) (s : Option Stamp) (i : Issuer) (L : Live) :
    still (offerUnlatch g p s i L).2 = still L := by
  unfold offerUnlatch; split
  · next h =>
    refine (still_updDock _ _ _ _ ?_).trans (still_offer_eq h)
    intro; rfl
  · simp

theorem still_offerUnlatch_eq {g : Setup} {p : Pos} {s : Option Stamp} {i : Issuer} {L M : Live} {o : Offered}
    (h : offerUnlatch g p s i L = (o, M)) : still M = still L := by
  have := still_offerUnlatch g p s i L
  rw [h] at this; exact this

@[simp] theorem still_withdrawUnlatch (g : Setup) (p : Pos) (L : Live) : still (withdrawUnlatch g p L) = still L := by
  refine (still_updDock _ _ _ _ ?_).trans (still_updArm _ _ _ ?_) <;> (intro; rfl)

@[simp] theorem still_placeMessage (p : Pos) (c : DisplayCode) (L : Live) : still (placeMessage p c L) = still L :=
  still_noteDock _ _ _ fun _ => rfl

@[simp] theorem still_placeResting (p : Pos) (c : DisplayCode) (L : Live) : still (placeResting p c L) = still L :=
  still_noteDock _ _ _ fun _ => rfl

@[simp] theorem still_refreshCode (p : Pos) (L : Live) : still (refreshCode p L) = still L := by
  unfold refreshCode; split
  · split <;> simp
  · rfl

@[simp] theorem still_placeChosen (p : Pos) (L : Live) : still (placeChosen p L) = still L := by
  unfold placeChosen; split <;> simp

@[simp] theorem still_refreshCodes (ps : List Pos) (L : Live) : still (refreshCodes ps L) = still L :=
  foldl_still _ (fun M p => still_refreshCode p M) _ _

@[simp] theorem still_checkLamp (p : Pos) (L : Live) : still (checkLamp p L) = still L := by
  unfold checkLamp; split <;> simp

@[simp] theorem still_checkLamps (ps : List Pos) (L : Live) : still (checkLamps ps L) = still L :=
  foldl_still _ (fun M p => still_checkLamp p M) _ _

@[simp] theorem still_refreshNodes (ps : List Pos) (L : Live) : still (refreshNodes ps L) = still L := by
  simp [refreshNodes]

/-! ## Closing -/

@[simp] theorem still_updClosing (b : BikeId) (m : Minute) (f : ClosingRec → ClosingRec) (L : Live) :
    still (updClosing b m f L) = still L := rfl

@[simp] theorem still_removeClosing (b : BikeId) (m : Minute) (L : Live) : still (removeClosing b m L) = still L := rfl

@[simp] theorem still_offerClose (b : BikeId) (m : Minute) (L : Live) : still (offerClose b m L) = still L := by
  unfold offerClose; split
  · rfl
  · split
    · simp
    · split <;> (next h => simp [still_offer_eq h])

@[simp] theorem still_beginRound (b : BikeId) (m : Minute) (L : Live) : still (beginRound b m L) = still L := by
  simp [beginRound]

@[simp] theorem still_resight (t : Tag) (L : Live) : still (resight t L) = still L := by
  unfold resight; split
  · split
    · split <;> simp
    · rfl
  · rfl

@[simp] theorem still_makeClearing (b : BikeId) (m : Minute) (p : Pos) (L : Live) :
    still (makeClearing b m p L) = still L := by
  unfold makeClearing; split
  · simp
  · split
    · rw [still_beginRound]; rfl
    · simp

@[simp] theorem still_retryCloses (p : Pos) (L : Live) : still (retryCloses p L) = still L :=
  foldl_still (fun (M : Live) (i : BikeId × Minute) => offerClose i.1 i.2 M) (fun M i => still_offerClose i.1 i.2 M) _ _

@[simp] theorem still_stoppedRound (p : Pos) (L : Live) : still (stoppedRound p L) = still L := by
  unfold stoppedRound; split
  · split
    · split
      · split <;> simp
      · rfl
    · rfl
  · rfl

/-! ## Faults -/

@[simp] theorem still_dropReservation (g : Setup) (p : Pos) (L : Live) : still (dropReservation g p L) = still L := by
  unfold dropReservation; split
  · rfl
  · exact still_updDock _ _ _ _ fun _ => rfl

@[simp] theorem still_dropReservations (g : Setup) (ps : List Pos) (L : Live) :
    still (dropReservations g ps L) = still L := foldl_still _ (fun M p => still_dropReservation g p M) _ _

@[simp] theorem still_dropPickup (g : Setup) (p : Pos) (L : Live) : still (dropPickup g p L) = still L := by
  unfold dropPickup; split <;> simp

@[simp] theorem still_endCrew (p : Pos) (L : Live) : still (endCrew p L) = still L := rfl

@[simp] theorem still_withdrawCrew (g : Setup) (c : Option DisplayCode) (p : Pos) (L : Live) :
    still (withdrawCrew g c p L) = still L := by
  unfold withdrawCrew; split
  · dsimp only; split <;> simp
  · rfl

@[simp] theorem still_barSet (g : Setup) (p : Pos) (L : Live) : still (barSet g p L) = still L := by simp [barSet]

@[simp] theorem still_barChange (g : Setup) (p : Pos) (b : Bool) (L : Live) : still (barChange g p b L) = still L := by
  unfold barChange; split
  · rfl
  · split <;> simp

@[simp] theorem still_barChangeOf (g : Setup) (s : Subject) (b : Bool) (L : Live) :
    still (barChangeOf g s b L) = still L := by unfold barChangeOf; split <;> simp

@[simp] theorem still_updFault (g : Setup) (k : FaultKind) (s : Subject) (f : FaultRec → FaultRec) (L : Live) :
    still (updFault g k s f L) = still L := by simp [updFault]

@[simp] theorem still_faultOpenedRecord (f : FaultRec) (L : Live) : still (faultOpenedRecord f L) = still L :=
  still_append ..

@[simp] theorem still_newFault (g : Setup) (k : FaultKind) (s : Subject) (d : FaultDetail) (L : Live) :
    still (newFault g k s d L) = still L := by
  unfold newFault; dsimp only; split <;> simp <;> rfl

@[simp] theorem still_openPlaced (g : Setup) (k : FaultKind) (s : Subject) (d : FaultDetail) (L : Live) :
    still (openPlaced g k s d L) = still L := by
  unfold openPlaced; split
  · split <;> simp
  · simp

@[simp] theorem still_dropMarkedPickups (g : Setup) (b : BikeId) (L : Live) :
    still (dropMarkedPickups g b L) = still L := by
  refine foldl_still _ (fun M p => ?_) _ _
  split
  · split <;> simp
  · rfl

@[simp] theorem still_openFault (g : Setup) (k : FaultKind) (s : Subject) (d : FaultDetail) (L : Live) :
    still (openFault g k s d L) = still L := by
  unfold openFault; split
  · dsimp only; split <;> simp
  · simp

@[simp] theorem still_openAt (g : Setup) (k : FaultKind) (p : Pos) (L : Live) : still (openAt g k p L) = still L := by
  simp [openAt]

@[simp] theorem still_faultClearedRecord (f : FaultRec) (L : Live) : still (faultClearedRecord f L) = still L := by
  unfold faultClearedRecord; split
  · rw [still_append]
  · rfl

@[simp] theorem still_putFault (g : Setup) (n : Nat) (f : Option FaultRec) (L : Live) :
    still (putFault g n f L) = still L := by simp [putFault]

@[simp] theorem still_clearFault (g : Setup) (m : Means) (f : FaultRec) (L : Live) :
    still (clearFault g m f L) = still L := by
  unfold clearFault; dsimp only; split <;> split <;> simp

@[simp] theorem still_clearFaults (g : Setup) (m : Means) (fs : List FaultRec) (L : Live) :
    still (clearFaults g m fs L) = still L := foldl_still _ (fun M f => still_clearFault g m f M) _ _

@[simp] theorem still_clearLive (g : Setup) (m : Means) (k : FaultKind) (s : Subject) (L : Live) :
    still (clearLive g m k s L) = still L := by unfold clearLive; split <;> simp

@[simp] theorem still_serveFault (g : Setup) (n : Nat) (L : Live) : still (serveFault g n L) = still L := by
  unfold serveFault; split
  · rfl
  · split <;> simp

@[simp] theorem still_unbarPosition (g : Setup) (p : Pos) (L : Live) : still (unbarPosition g p L) = still L := by
  simp [unbarPosition]

@[simp] theorem still_openServiceDue (g : Setup) (p : Pos) (v : Nat) (L : Live) :
    still (openServiceDue g p v L) = still L := by simp [openServiceDue]

@[simp] theorem still_transition (g : Setup) (p : Pos) (L : Live) : still (transition g p L) = still L := by
  unfold transition; split
  · dsimp only; split
    · split
      · rw [still_openServiceDue]; rfl
      · rfl
    · rfl
  · rfl

/-! ## Van -/

@[simp] theorem still_updVisit (f : VisitRec → VisitRec) (L : Live) : still (updVisit f L) = still L := rfl

@[simp] theorem still_vanVisitRecord (v : VisitRec) (L : Live) : still (vanVisitRecord v L) = still L := by
  unfold vanVisitRecord; split
  · rw [still_append]
  · rfl

@[simp] theorem still_writeSummary (L : Live) : still (writeSummary L) = still L := by
  unfold writeSummary; split
  · split <;> simp
  · rfl

@[simp] theorem still_withVisit (v : Visit) (L : Live) : still { L with visit := v } = still L := rfl

theorem still_withdrawAll (g : Setup) (ps : List Pos) (L : Live) :
    still (ps.foldl (fun M p => withdrawCrew g none p M) L) = still L :=
  foldl_still _ (fun M p => still_withdrawCrew g none p M) _ _

@[simp] theorem still_closeVisit (g : Setup) (r : CloseReason) (L : Live) : still (closeVisit g r L) = still L := by
  unfold closeVisit
  dsimp only
  rw [still_raise_vanDone, still_writeSummary, still_withdrawAll, still_dropReservations, still_withVisit]

@[simp] theorem still_completionTest (g : Setup) (L : Live) : still (completionTest g L) = still L := by
  unfold completionTest; split
  · split <;> simp
  · rfl

@[simp] theorem still_countDone (g : Setup) (f : VisitRec → VisitRec) (L : Live) :
    still (countDone g f L) = still L := by unfold countDone; split <;> simp

@[simp] theorem still_visitTap (c : CardId) (L : Live) : still (visitTap c L) = still L := by
  unfold visitTap; split
  · split <;> rfl
  · rfl

@[simp] theorem still_reserve (g : Setup) (r : Reservation) (ps : List Pos) (L : Live) :
    still (reserve g r ps L) = still L := by
  unfold reserve
  refine foldl_still _ (fun M p => ?_) _ _
  exact still_updDock g p _ M fun d => rfl

@[simp] theorem still_crewUnlatch (g : Setup) (p : Pos) (u : Purpose) (c : CardId) (n : Bool) (L : Live) :
    still (crewUnlatch g p u c n L) = still L := by
  unfold crewUnlatch; dsimp only; split
  · next M h =>
    have : still M = still L := still_offerUnlatch_eq h
    exact this
  · next h => rw [still_placeMessage]; exact still_offerUnlatch_eq h

@[simp] theorem still_crewHeld (g : Setup) (p : Pos) (c : CardId) (L : Live) : still (crewHeld g p c L) = still L := by
  unfold crewHeld; dsimp only; split
  · simp
  · split <;> simp

@[simp] theorem still_crewTap (g : Setup) (p : Pos) (r : CardRec) (L : Live) : still (crewTap g p r L) = still L := by
  unfold crewTap; dsimp only
  repeat' split
  all_goals simp

@[simp] theorem still_crewClear (g : Setup) (p : Pos) (r : CardRec) (L : Live) :
    still (crewClear g p r L) = still L := by
  unfold crewClear; dsimp only
  repeat' split
  all_goals simp

@[simp] theorem still_pickupTaken (g : Setup) (p : Pos) (c : CrewAction) (b : Option BikeId) (L : Live) :
    still (pickupTaken g p c b L) = still L := by unfold pickupTaken; dsimp only; split <;> simp

@[simp] theorem still_collectionTaken (g : Setup) (p : Pos) (c : CrewAction) (b : Option BikeId) (L : Live) :
    still (collectionTaken g p c b L) = still L := by
  unfold collectionTaken; dsimp only; split <;> split <;> simp

@[simp] theorem still_crewTaken (g : Setup) (p : Pos) (c : CrewAction) (b : Option BikeId) (L : Live) :
    still (crewTaken g p c b L) = still L := by unfold crewTaken; dsimp only; split <;> simp

@[simp] theorem still_dropMeets (g : Setup) (p : Pos) (L : Live) : still (dropMeets g p L) = still L := by
  unfold dropMeets; split
  · simp
  · split <;> simp

@[simp] theorem still_vanDrop (g : Setup) (p : Pos) (b : BikeId) (L : Live) : still (vanDrop g p b L) = still L := by
  simp [vanDrop]

@[simp] theorem still_moveReservation (g : Setup) (p : Pos) (L : Live) : still (moveReservation g p L) = still L := by
  unfold moveReservation; split
  · split
    · rw [still_refill]
      refine (still_noteDock _ _ _ ?_).trans (still_noteDock _ _ _ ?_) <;> (intro; rfl)
    · simp
  · rfl

/-! ## Hire -/

@[simp] theorem still_endRemote (r : Release) (x : RemoteResult) (L : Live) : still (endRemote r x L) = still L := by
  unfold endRemote; split
  · rw [still_raise_remoteDone]; rfl
  · rfl

@[simp] theorem still_openClockFault (g : Setup) (p : Pos) (s : Slot) (L : Live) :
    still (openClockFault g p s L) = still L := by unfold openClockFault; split <;> simp

@[simp] theorem still_giveReturn (g : Setup) (p : Pos) (t : Tag) (s : Stamp) (m : Minute) (f : FillState) (l : Bool)
    (L : Live) : still (giveReturn g p t s m f l L) = still L := by
  unfold giveReturn; dsimp only
  rw [still_moveReservation, still_placeMessage]
  refine (still_updDock _ _ _ _ ?_).trans ?_
  · intro; rfl
  · simp

@[simp] theorem still_heldArrival (g : Setup) (p : Pos) (L : Live) : still (heldArrival g p L) = still L := by
  unfold heldArrival; split
  · split
    · split <;> simp
    · rfl
  · rfl

@[simp] theorem still_hireEndRecord (p : Pos) (s : Slot) (L : Live) : still (hireEndRecord p s L) = still L :=
  still_append ..

@[simp] theorem still_slotWritten (g : Setup) (p : Pos) (s : Slot) (L : Live) :
    still (slotWritten g p s L) = still L := by
  unfold slotWritten; dsimp only
  rw [still_heldArrival, still_beginRound]
  refine (still_updDock _ _ _ _ ?_).trans rfl
  intro; rfl

@[simp] theorem still_journalStep (g : Setup) (p : Pos) (s : Slot) (L : Live) :
    still (journalStep g p s L) = still L := by
  unfold journalStep; dsimp only; split
  · simp
  · exact still_updDock _ _ _ _ fun _ => rfl

@[simp] theorem still_listStep (g : Setup) (p : Pos) (s : Slot) (L : Live) : still (listStep g p s L) = still L := by
  unfold listStep; split
  · simp
  · exact still_updDock _ _ _ _ fun _ => rfl

@[simp] theorem still_settleFigures (s : Slot) (L : Live) : still (settleFigures s L).2 = still L := by
  unfold settleFigures; dsimp only; split
  · split <;> (next h => have := still_charge s.stamp.card (finalNet s).1 L; rw [h] at this; exact this)
  · rfl

@[simp] theorem still_settle (g : Setup) (p : Pos) (s : Slot) (L : Live) : still (settle g p s L) = still L := by
  simp [settle]

@[simp] theorem still_settleOpen (g : Setup) (p : Pos) (L : Live) : still (settleOpen g p L) = still L := by
  unfold settleOpen; split
  · split <;> simp
  · rfl

@[simp] theorem still_serveList (g : Setup) (L : Live) : still (serveList g L) = still L := by
  refine foldl_still _ (fun M p => ?_) _ _
  split
  · split <;> simp
  · rfl

@[simp] theorem still_leaveClosing (g : Setup) (b : BikeId) (m : Minute) (L : Live) :
    still (leaveClosing g b m L) = still L := by unfold leaveClosing; split <;> simp

@[simp] theorem still_priceLate (g : Setup) (p : Pos) (L : Live) : still (priceLate g p L) = still L := by
  unfold priceLate; split
  · split <;> simp
  · rfl

@[simp] theorem still_priceAllLate (g : Setup) (L : Live) : still (priceAllLate g L) = still L :=
  foldl_still _ (fun M p => still_priceLate g p M) _ _

@[simp] theorem still_serveMove (p : Pos) (L : Live) : still (serveMove p L) = still L := by
  unfold serveMove; split
  · rw [still_moveRecord]; exact still_noteDock _ _ _ fun _ => rfl
  · rfl

@[simp] theorem still_serveOne (g : Setup) (w : Writer) (L : Live) : still (serveOne g w L) = still L := by
  unfold serveOne
  repeat' split
  all_goals first | rfl | simp [still_withCards]

@[simp] theorem still_serveUpTo (g : Setup) (n : Nat) (L : Live) : still (serveUpTo g n L) = still L := by
  induction n generalizing L with
  | zero => rfl
  | succ n ih =>
    unfold serveUpTo; split
    · rfl
    · split
      · rfl
      · rw [ih, still_serveOne]

@[simp] theorem still_serve (g : Setup) (L : Live) : still (serve g L) = still L := still_serveUpTo _ _ _

@[simp] theorem still_dropClaim (g : Setup) (L : Live) : still (dropClaim g L) = still L := by
  unfold dropClaim; rw [still_serve]; rfl

@[simp] theorem still_removeRelease (p : Pos) (L : Live) : still (removeRelease p L) = still L := rfl

@[simp] theorem still_releaseFails (g : Setup) (r : Release) (x : RemoteResult) (L : Live) :
    still (releaseFails g r x L) = still L := by simp [releaseFails]

@[simp] theorem still_releaseTaken (r : Release) (l : Bool) (L : Live) : still (releaseTaken r l L) = still L := by
  simp [releaseTaken]

@[simp] theorem still_emptyLatch (g : Setup) (p : Pos) (L : Live) : still (emptyLatch g p L) = still L :=
  still_updDock _ _ _ _ fun _ => rfl

@[simp] theorem still_withdrawRelease (g : Setup) (c : DisplayCode) (p : Pos) (L : Live) :
    still (withdrawRelease g c p L) = still L := by
  unfold withdrawRelease; split
  · split <;> simp
  · rfl

@[simp] theorem still_withdrawReleases (g : Setup) (c : DisplayCode) (ps : List Pos) (L : Live) :
    still (withdrawReleases g c ps L) = still L := foldl_still _ (fun M p => still_withdrawRelease g c p M) _ _

@[simp] theorem still_withdrawCrews (g : Setup) (c : DisplayCode) (ps : List Pos) (L : Live) :
    still (withdrawCrews g c ps L) = still L := foldl_still _ (fun M p => still_withdrawCrew g (some c) p M) _ _

@[simp] theorem still_heldOrReturn (g : Setup) (p : Pos) (t : Tag) (s : Stamp) (f : FillState) (L : Live) :
    still (heldOrReturn g p t s f L) = still L := by unfold heldOrReturn; split <;> simp

@[simp] theorem still_dropSettled (g : Setup) (p : Pos) (L : Live) : still (dropSettled g p L) = still L := by
  unfold dropSettled; split
  · rfl
  · exact still_updDock _ _ _ _ fun _ => rfl

@[simp] theorem still_settleElsewhere (g : Setup) (r : Release) (L : Live) :
    still (settleElsewhere g r L) = still L := by simp [settleElsewhere]

@[simp] theorem still_arrivalOpen (g : Setup) (p : Pos) (t : Tag) (s : Stamp) (f : FillState) (L : Live) :
    still (arrivalOpen g p t s f L) = still L := by
  unfold arrivalOpen
  repeat' split
  all_goals simp

@[simp] theorem still_arrival (g : Setup) (p : Pos) (s : Snapshot) (f : FillState) (L : Live) :
    still (arrival g p s f L) = still L := by
  unfold arrival
  repeat' split
  all_goals simp

@[simp] theorem still_initialSnapshot (g : Setup) (p : Pos) (s : Option Snapshot) (f : FillState) (L : Live) :
    still (initialSnapshot g p s f L) = still L := by
  unfold initialSnapshot
  dsimp only
  repeat' split
  all_goals first | rfl | simp

@[simp] theorem still_decideRecord (g : Setup) (p : Pos) (r : CardRec) (b : Bool) (L : Live) :
    still (decideRecord g p r b L).2 = still L := by
  unfold decideRecord
  repeat' split
  all_goals try rfl
  next M t hM ht =>
    dsimp only
    have h1 : still (offerUnlatch g p (some (buildStamp g p r L)) .hireEngine (claim M)).2 = still L := by
      rw [still_offerUnlatch, still_claim, still_takeOut hM]
    exact h1

@[simp] theorem still_decideTap (g : Setup) (p : Pos) (c : CardId) (L : Live) :
    still (decideTap g p c L).2 = still L := by
  have e := still_tapLookup g c p L
  unfold decideTap; split
  · rfl
  · split <;> (next h => rw [h] at e; simpa using e)

@[simp] theorem still_decideRemote (g : Setup) (p : Pos) (c : CardId) (L : Live) :
    still (decideRemote g p c L).2 = still L := by
  unfold decideRemote
  repeat' split
  all_goals first | rfl | simp

@[simp] theorem still_showRefusal (p : Pos) (r : Option DisplayCode × Live) : still (showRefusal p r) = still r.2 := by
  unfold showRefusal; split <;> simp

@[simp] theorem still_tap (g : Setup) (p : Pos) (c : CardId) (L : Live) : still (tap g p c L) = still L := by
  unfold tap; dsimp only
  repeat' split
  all_goals first | rfl | simp

@[simp] theorem still_answerQuery (g : Setup) (c : CardId) (L : Live) : still (answerQuery g c L) = still L := by
  unfold answerQuery; split
  · dsimp only; split <;> simp
  · rfl

@[simp] theorem still_offerMark (g : Setup) (p : Pos) (b : BikeId) (i : Issuer) (L : Live) :
    still (offerMark g p b i L) = still L := by simp [offerMark]

@[simp] theorem still_windowButton (g : Setup) (p : Pos) (s : Slot) (L : Live) :
    still (windowButton g p s L) = still L := by
  unfold windowButton; dsimp only; split
  · rw [still_placeMessage, still_openFault, still_offerMark]; exact still_updDock _ _ _ _ fun _ => rfl
  · simp

@[simp] theorem still_outsideButton (g : Setup) (p : Pos) (L : Live) : still (outsideButton g p L) = still L := by
  unfold outsideButton; dsimp only; split
  · split <;> simp
  · simp

@[simp] theorem still_button (g : Setup) (p : Pos) (L : Live) : still (button g p L) = still L := by
  unfold button; split
  · split <;> simp
  · simp

@[simp] theorem still_setLatch (g : Setup) (p : Pos) (l : Latch) (L : Live) : still (setLatch g p l L) = still L :=
  still_updDock _ _ _ _ fun _ => rfl

@[simp] theorem still_riderOutcome (g : Setup) (p : Pos) (r : Release) (o : Outcome) (L : Live) :
    still (riderOutcome g p r o L) = still L := by unfold riderOutcome; split <;> simp

@[simp] theorem still_crewOutcome (g : Setup) (p : Pos) (o : Outcome) (L : Live) :
    still (crewOutcome g p o L) = still L := by unfold crewOutcome; split <;> simp

@[simp] theorem still_unlatchOutcome (g : Setup) (p : Pos) (o : Outcome) (L : Live) :
    still (unlatchOutcome g p o L) = still L := by
  unfold unlatchOutcome; split
  · simp
  · split <;> simp

@[simp] theorem still_closeSnapshot (g : Setup) (p : Pos) (b : BikeId) (m : Minute) (c : Option Minute) (L : Live) :
    still (closeSnapshot g p b m c L) = still L := by
  unfold closeSnapshot
  repeat' split
  all_goals first | rfl | exact still_updDock _ _ _ _ fun _ => rfl

@[simp] theorem still_closeOutcome (g : Setup) (p : Pos) (b : BikeId) (m : Minute) (c : Option Minute) (o : Outcome)
    (L : Live) : still (closeOutcome g p b m c o L) = still L := by
  unfold closeOutcome
  repeat' split
  all_goals simp

@[simp] theorem still_markOutcome (g : Setup) (p : Pos) (b : BikeId) (m : Minute) (n : Nat) (o : Outcome) (L : Live) :
    still (markOutcome g p b m n o L) = still L := by
  unfold markOutcome; split
  · split
    · rw [still_dropPickup]; exact still_updDock _ _ _ _ fun _ => rfl
    · rfl
  · rfl

@[simp] theorem still_lampOutcome (p : Pos) (l : Lamp) (o : Outcome) (L : Live) :
    still (lampOutcome p l o L) = still L := by
  unfold lampOutcome; split
  · rw [still_checkLamp]; exact still_noteDock _ _ _ fun _ => rfl
  · rfl

@[simp] theorem still_outcome (g : Setup) (e : QueueEntry) (o : Outcome) (L : Live) :
    still (outcome g e o L) = still L := by unfold outcome; split <;> simp

/-! ## Docks -/

@[simp] theorem still_departure (g : Setup) (p : Pos) (L : Live) : still (departure g p L) = still L := by
  simp [departure]

@[simp] theorem still_arriveEmpty (g : Setup) (p : Pos) (s : Snapshot) (L : Live) :
    still (arriveEmpty g p s L) = still L := by
  unfold arriveEmpty; dsimp only
  rw [still_arrival, still_transition]
  exact still_updDock _ _ _ _ fun _ => rfl

@[simp] theorem still_refreshSnapshot (g : Setup) (p : Pos) (s : Snapshot) (L : Live) :
    still (refreshSnapshot g p s L) = still L := by
  unfold refreshSnapshot; dsimp only; split
  · split
    · rw [still_resight, still_dropPickup]; exact still_updDock _ _ _ _ fun _ => rfl
    · rw [still_resight]; exact still_updDock _ _ _ _ fun _ => rfl
  · exact still_updDock _ _ _ _ fun _ => rfl

@[simp] theorem still_meetHeld (g : Setup) (p : Pos) (s : Snapshot) (L : Live) : still (meetHeld g p s L) = still L := by
  unfold meetHeld; split <;> simp

@[simp] theorem still_bikeIn (g : Setup) (p : Pos) (s : Snapshot) (L : Live) : still (bikeIn g p s L) = still L := by
  unfold bikeIn; split <;> simp

@[simp] theorem still_takenOpen (g : Setup) (p : Pos) (L : Live) : still (takenOpen g p L) = still L := by
  unfold takenOpen; dsimp only; split
  · simp
  · split <;> simp

@[simp] theorem still_relatch (g : Setup) (p : Pos) (s : Snapshot) (L : Live) : still (relatch g p s L) = still L := by
  unfold relatch; dsimp only
  rw [still_transition]
  split
  · split
    · rw [still_dropPickup]; exact still_updDock _ _ _ _ fun _ => rfl
    · exact still_updDock _ _ _ _ fun _ => rfl
  · split
    · rw [still_dropPickup]; exact still_updDock _ _ _ _ fun _ => rfl
    · exact still_updDock _ _ _ _ fun _ => rfl

@[simp] theorem still_relatchedOpen (g : Setup) (p : Pos) (s : Snapshot) (L : Live) :
    still (relatchedOpen g p s L) = still L := by
  unfold relatchedOpen; dsimp only; split
  · split <;> simp
  · simp

@[simp] theorem still_forgetUnlatch (p : Pos) (L : Live) : still (forgetUnlatch p L) = still L :=
  still_updArm _ _ _ fun _ => rfl

@[simp] theorem still_impliedAccepted (g : Setup) (p : Pos) (L : Live) : still (impliedAccepted g p L) = still L := by
  simp [impliedAccepted]

@[simp] theorem still_taken (g : Setup) (p : Pos) (L : Live) : still (taken g p L) = still L := by
  unfold taken; split <;> simp

@[simp] theorem still_relatched (g : Setup) (p : Pos) (s : Snapshot) (L : Live) :
    still (relatched g p s L) = still L := by unfold relatched; split <;> simp

@[simp] theorem still_answerPass (p : Pos) (c : CardId) (a : PassReply) (L : Live) :
    still (answerPass p c a L) = still L := by simp [answerPass]

@[simp] theorem still_createPass (g : Setup) (p : Pos) (r : CardRec) (n : Nat) (L : Live) :
    still (createPass g p r n L) = still L := by
  unfold createPass; dsimp only
  rw [still_answerPass, still_answerQuery, still_append]
  rfl

@[simp] theorem still_passHeld (g : Setup) (p : Pos) (c : CardId) (k : PlanClass) (h : Money) (v n : Nat) (L : Live) :
    still (passHeld g p c k h v n L) = still L := by
  unfold passHeld; split
  · simp
  · split <;> simp

@[simp] theorem still_dockEvent (g : Setup) (p : Pos) (e : NodeEvent) (L : Live) :
    still (dockEvent g p e L) = still L := by unfold dockEvent; split <;> simp

@[simp] theorem still_kioskEvent (g : Setup) (p : Pos) (e : NodeEvent) (L : Live) :
    still (kioskEvent g p e L) = still L := by unfold kioskEvent; split <;> simp

/-- A node event leaves the power sequencer, the clock, the port, the controllers and the link states (R14). -/
@[simp] theorem still_nodeEvent (g : Setup) (p : Pos) (e : NodeEvent) (L : Live) :
    still (nodeEvent g p e L) = still L := by unfold nodeEvent; split <;> simp

@[simp] theorem still_uncertainTaken (g : Setup) (r : Release) (L : Live) : still (uncertainTaken g r L) = still L := by
  simp [uncertainTaken]

@[simp] theorem still_uncertainKept (g : Setup) (r : Release) (s : Snapshot) (b : Bool) (L : Live) :
    still (uncertainKept g r s b L) = still L := by unfold uncertainKept; dsimp only; split <;> simp

@[simp] theorem still_settleRelease (g : Setup) (r : Release) (s : Option Snapshot) (L : Live) :
    still (settleRelease g r s L) = still L := by
  unfold settleRelease; split
  · simp
  · simp
  · split <;> simp

@[simp] theorem still_crewUncertainTaken (g : Setup) (c : CrewAction) (L : Live) :
    still (crewUncertainTaken g c L) = still L := by simp [crewUncertainTaken]

@[simp] theorem still_crewUncertainKept (g : Setup) (c : CrewAction) (s : Snapshot) (L : Live) :
    still (crewUncertainKept g c s L) = still L := by simp [crewUncertainKept]

@[simp] theorem still_settleCrew (g : Setup) (c : CrewAction) (s : Option Snapshot) (L : Live) :
    still (settleCrew g c s L) = still L := by
  unfold settleCrew; split
  · simp
  · simp
  · split <;> simp

@[simp] theorem still_latchFrom (g : Setup) (p : Pos) (s : Option Snapshot) (L : Live) :
    still (latchFrom g p s L) = still L := still_updDock _ _ _ _ fun _ => rfl

@[simp] theorem still_settleUncertain (g : Setup) (p : Pos) (s : Option Snapshot) (L : Live) :
    still (settleUncertain g p s L) = still L := by
  unfold settleUncertain; split
  · simp
  · split <;> simp

@[simp] theorem still_storeIdentity (g : Setup) (p : Pos) (k : NodeKind) (a : IdentifyAnswer) (L : Live) :
    still (storeIdentity g p k a L) = still L := still_updDock _ _ _ _ fun _ => rfl

@[simp] theorem still_noteIdentity (g : Setup) (p : Pos) (k : NodeKind) (a : IdentifyAnswer) (L : Live) :
    still (noteIdentity g p k a L) = still L := by simp [noteIdentity]

@[simp] theorem still_firstIdentification (g : Setup) (p : Pos) (s : Option Snapshot) (L : Live) :
    still (firstIdentification g p s L) = still L := by simp [firstIdentification]

@[simp] theorem still_compareSnapshots (g : Setup) (p : Pos) (s : Option Snapshot) (L : Live) :
    still (compareSnapshots g p s L) = still L := by unfold compareSnapshots; split <;> simp

@[simp] theorem still_recoverUnlatch (g : Setup) (p : Pos) (a : Activity) (s : Option Snapshot) (L : Live) :
    still (recoverUnlatch g p a s L) = still L := by unfold recoverUnlatch; split <;> simp

@[simp] theorem still_dropContents (g : Setup) (p : Pos) (L : Live) : still (dropContents g p L) = still L := by
  unfold dropContents; dsimp only
  refine (still_updDock _ _ _ _ ?_).trans ?_
  · intro; rfl
  · split <;> simp

@[simp] theorem still_identifyDock (g : Setup) (p : Pos) (a : IdentifyAnswer) (x : Activity) (s : Option Snapshot)
    (L : Live) : still (identifyDock g p a x s L) = still L := by
  unfold identifyDock; dsimp only
  repeat' split
  all_goals simp

@[simp] theorem still_identifyKiosk (g : Setup) (p : Pos) (a : IdentifyAnswer) (L : Live) :
    still (identifyKiosk g p a L) = still L := by unfold identifyKiosk; split <;> simp

theorem still_withKiosks (g : Setup) (f : Live → Live) (L : Live) : still (withKiosks g f L) = still (f L) := by
  unfold withKiosks; dsimp only
  rw [still_refreshCodes]
  exact foldl_still _ (fun M p => still_openAt g _ p M) _ _

@[simp] theorem still_endCommands (g : Setup) (p : Pos) (L : Live) : still (endCommands g p L) = still L := by
  unfold endCommands; dsimp only
  have base : ∀ M : Live, still M = still L →
      still (((L.arm (armOf p)).queue.filter fun e => e.pos = p).foldl (fun M e => outcome g e .notSent M) M) =
        still L := fun M h => by rw [foldl_still _ (fun M e => still_outcome g e .notSent M)]; exact h
  have h0 := base _ (still_updArm (armOf p)
    (fun r =>
      { r with
        queue := r.queue.filter fun e => e.pos ≠ p
        resend := r.resend.filter fun s => s.entry.pos ≠ p
        repower := r.repower.filter fun k => k ≠ numOf p }) L (fun _ => rfl))
  split
  · rw [still_outcome]; exact h0
  · exact h0

@[simp] theorem still_loseLatch (g : Setup) (p : Pos) (L : Live) : still (loseLatch g p L) = still L := by
  unfold loseLatch; split <;> simp

/-! ## Changes of link state -/

/-- A change of link state leaves the calm part. -/
@[simp] theorem calm_updDock (g : Setup) (p : Pos) (f : DockRec → DockRec) (L : Live) :
    calm (updDock g p f L) = calm L := by
  unfold updDock; rw [calm_of_still (still_refill g _)]; rfl

@[simp] theorem calm_updLink (p : Pos) (f : LinkRec → LinkRec) (L : Live) : calm (updLink p f L) = calm L := rfl

@[simp] theorem calm_setLinkState (g : Setup) (p : Pos) (st : LinkState) (r : Recovery) (L : Live) :
    calm (setLinkState g p st r L) = calm L := by simp [setLinkState]

/-- The loss of a position leaves the calm part (R15). -/
@[simp] theorem calm_becomeLost (g : Setup) (p : Pos) (L : Live) : calm (becomeLost g p L) = calm L := by
  unfold becomeLost
  rw [calm_of_still (still_openAt g _ p _), calm_of_still (still_loseLatch g p _),
    calm_of_still (still_endCommands g p _), calm_setLinkState]

/-- A position gone DARK leaves the calm part (R15, R42). -/
@[simp] theorem calm_becomeDark (g : Setup) (p : Pos) (L : Live) : calm (becomeDark g p L) = calm L := by
  unfold becomeDark
  rw [calm_of_still (still_loseLatch g p _), calm_of_still (still_endCommands g p _), calm_setLinkState]

/-- A position gone ABSENT leaves the calm part (R42). -/
@[simp] theorem calm_becomeAbsent (g : Setup) (p : Pos) (L : Live) : calm (becomeAbsent g p L) = calm L := by
  unfold becomeAbsent
  rw [calm_of_still (still_withKiosks g _ _), calm_of_still (still_dropContents g p _),
    calm_of_still (still_endCommands g p _), calm_setLinkState]

@[simp] theorem calm_darkOrAbsent (g : Setup) (p : Pos) (L : Live) : calm (darkOrAbsent g p L) = calm L := by
  unfold darkOrAbsent; split <;> simp

/-- An identification leaves the calm part (R6, R16). -/
@[simp] theorem calm_identified (g : Setup) (p : Pos) (a : IdentifyAnswer) (L : Live) :
    calm (identified g p a L) = calm L := by
  unfold identified; dsimp only
  rw [calm_of_still (still_checkLamp p _), calm_of_still (still_withKiosks g _ _)]
  split
  · rw [calm_of_still (still_identifyDock ..), calm_of_still (still_clearLive ..), calm_updDock, calm_updLink]
  · rw [calm_of_still (still_identifyKiosk ..), calm_of_still (still_clearLive ..), calm_updDock, calm_updLink]

end Sys2Proof.Machine
end

