-- ==== Sys2Proof/Laws/Links.lean ====
section
/-! SUPPORT. What the rack link controllers leave alone, said once. `away a` gathers the power sequencer (but for what
its arm sequence keeps), the clock, the port, the supply and the other arms: every controller function of arm `a`
leaves it. `framed` is the part of it that names no arm. `handed` is what the hand-out of transactions leaves. -/

namespace Sys2Proof.Machine

/-! ## The projections -/

/-- The power sequencer's state but for its arm sequence and shed marks. -/
def powerFrame (P : Power) : Power :=
  { P with
    shedMark := Vector.replicate 4 false, sequence := [], waiting := false, members := Vector.replicate 4 false
    begun := Vector.replicate 4 false }

/-- What no controller function and no arm sequence changes. -/
structure Framed where
  power : Power
  clock : Clock
  port : Port
  boot : Option StartKind
  powered : Bool
  storeValid : Bool
  /-- the flags of POWER CHANGE, RESTARTED and COLD START -/
  flags : List EventFlag
deriving DecidableEq, Repr

/-- The framed part of a state. -/
def framed (L : Live) : Framed :=
  { power := powerFrame L.power, clock := L.clock, port := L.port, boot := L.boot, powered := L.powered
    storeValid := L.storeValid, flags := (ownFlags L).tail }

/-- The framed part and the arms other than a, but for their queues. -/
structure Away where
  framed : Framed
  arms : Vector ArmRec 4
deriving DecidableEq, Repr

/-- What the controller of arm a leaves alone. -/
def away (a : Arm) (L : Live) : Away :=
  { framed := framed L, arms := upd (L.arms.map armStill) a fun _ => ArmRec.initial }

/-- What leaves the calm part leaves the framed part. -/
theorem framed_of_calm {L M : Live} (h : calm M = calm L) : framed M = framed L := by
  simp only [calm, Calm.mk.injEq] at h
  simp only [framed, h]

/-- What leaves the calm part leaves what is away from an arm. -/
theorem away_of_calm {L M : Live} (a : Arm) (h : calm M = calm L) : away a M = away a L := by
  have hf := framed_of_calm h
  simp only [calm, Calm.mk.injEq] at h
  simp only [away, hf, h]

/-- What leaves the still part leaves what is away from an arm. -/
theorem away_of_still {L M : Live} (a : Arm) (h : still M = still L) : away a M = away a L :=
  away_of_calm a (calm_of_still h)

/-- The framed part is away from every arm. -/
theorem framed_of_away {a : Arm} {L M : Live} (h : away a M = away a L) : framed M = framed L := congrArg Away.framed h

/-- Another arm's record is away from arm a. -/
theorem away_arm {a b : Arm} {L M : Live} (h : away a M = away a L) (hb : b ≠ a) :
    armStill (M.arm b) = armStill (L.arm b) := by
  have := congrArg (fun c => c.arms[b.val]) h
  simpa [away, upd_other _ _ hb, Live.arm] using this

/-- A fold of steps that leave what is away from an arm. -/
theorem foldl_away {α : Type} (a : Arm) (f : Live → α → Live) (h : ∀ M x, away a (f M x) = away a M) (xs : List α)
    (L : Live) : away a (xs.foldl f L) = away a L := by
  induction xs generalizing L with
  | nil => rfl
  | cons x xs ih => simp [List.foldl_cons, ih, h]

/-- A fold of steps that leave the framed part. -/
theorem foldl_framed {α : Type} (f : Live → α → Live) (h : ∀ M x, framed (f M x) = framed M) (xs : List α) (L : Live) :
    framed (xs.foldl f L) = framed L := by
  induction xs generalizing L with
  | nil => rfl
  | cons x xs ih => simp [List.foldl_cons, ih, h]

/-! ## Reading the framed part -/

/-- The power state is framed. -/
theorem framed_powerState {L M : Live} (h : framed M = framed L) : M.power.state = L.power.state := by
  have := congrArg (fun c => c.power.state) h
  simpa [framed, powerFrame] using this

/-- The return state is framed. -/
theorem framed_returnQuiet {L M : Live} (h : framed M = framed L) : M.power.returnQuiet = L.power.returnQuiet := by
  have := congrArg (fun c => c.power.returnQuiet) h
  simpa [framed, powerFrame] using this

/-- The line levels are framed. -/
theorem framed_lines {L M : Live} (h : framed M = framed L) :
    M.power.mainsOk = L.power.mainsOk ∧ M.power.battLow = L.power.battLow ∧ M.power.service = L.power.service := by
  have h1 := congrArg (fun c => c.power.mainsOk) h
  have h2 := congrArg (fun c => c.power.battLow) h
  have h3 := congrArg (fun c => c.power.service) h
  exact ⟨h1, h2, h3⟩

/-- The shed set is framed. -/
theorem framed_shedSet {L M : Live} (h : framed M = framed L) : M.power.shedSet = L.power.shedSet := by
  have := congrArg (fun c => c.power.shedSet) h
  simpa [framed, powerFrame] using this

/-- The service requests are framed. -/
theorem framed_request {L M : Live} (h : framed M = framed L) : M.power.request = L.power.request := by
  have := congrArg (fun c => c.power.request) h
  simpa [framed, powerFrame] using this

/-- The clock is framed. -/
theorem framed_clock {L M : Live} (h : framed M = framed L) : M.clock = L.clock := congrArg Framed.clock h

/-- The port is framed. -/
theorem framed_port {L M : Live} (h : framed M = framed L) : M.port = L.port := congrArg Framed.port h

/-- The start-up in progress is framed. -/
theorem framed_boot {L M : Live} (h : framed M = framed L) : M.boot = L.boot := congrArg Framed.boot h

/-- The flag of POWER CHANGE is framed. -/
theorem framed_powerChange {L M : Live} (h : framed M = framed L) :
    M.attention[EventKind.powerChange.idx.val] = L.attention[EventKind.powerChange.idx.val] := by
  have := congrArg Framed.flags h
  simp only [framed, ownFlags, List.tail_cons, List.cons.injEq] at this
  exact this.1

/-- The supply is framed. -/
theorem framed_powered {L M : Live} (h : framed M = framed L) : M.powered = L.powered := congrArg Framed.powered h

/-! ## Updates -/

@[simp] theorem framed_raise_armChange (L : Live) : framed (raise .armChange L) = framed L := by
  have h : ∀ j : EventKind, j ≠ .armChange → (raise .armChange L).attention[j.idx.val] = L.attention[j.idx.val] :=
    fun j hj => upd_other _ _ (by cases j <;> simp_all [EventKind.idx])
  simp only [framed, ownFlags, List.tail_cons, h .powerChange (by decide), h .restarted (by decide),
    h .coldStart (by decide), raise_power, raise_clock, raise_port, raise_boot, raise_powered, raise_storeValid]

@[simp] theorem away_raise_armChange (a : Arm) (L : Live) : away a (raise .armChange L) = away a L := by
  simp only [away, framed_raise_armChange, raise_arms]

@[simp] theorem away_updArm (a : Arm) (f : ArmRec → ArmRec) (L : Live) : away a (updArm a f L) = away a L := by
  simp only [away, framed, updArm_arms, updArm_power, updArm_clock, updArm_port, updArm_boot, updArm_powered,
    updArm_storeValid, ownFlags_congr (updArm_attention a f L), Away.mk.injEq, true_and]
  apply Vector.ext
  intro j hj
  have e1 := upd_get ((upd L.arms a f).map armStill) a ⟨j, hj⟩ fun _ => ArmRec.initial
  have e2 := upd_get (L.arms.map armStill) a ⟨j, hj⟩ fun _ => ArmRec.initial
  have e3 := upd_get L.arms a ⟨j, hj⟩ f
  dsimp only at e1 e2 e3
  rw [e1, e2]
  split
  · rfl
  · next h => rw [Vector.getElem_map, Vector.getElem_map, e3, if_neg h]

@[simp] theorem away_updLink (a : Arm) (p : Pos) (f : LinkRec → LinkRec) (L : Live) :
    away a (updLink p f L) = away a L := rfl

@[simp] theorem away_noteDock (a : Arm) (p : Pos) (f : DockRec → DockRec) (L : Live) :
    away a (noteDock p f L) = away a L := rfl

@[simp] theorem away_updDock (a : Arm) (g : Setup) (p : Pos) (f : DockRec → DockRec) (L : Live) :
    away a (updDock g p f L) = away a L := away_of_calm a (calm_updDock g p f L)

@[simp] theorem away_refill (a : Arm) (g : Setup) (L : Live) : away a (refill g L) = away a L :=
  away_of_still a (still_refill g L)

@[simp] theorem away_setArmState (a : Arm) (g : Setup) (st : ArmState) (L : Live) :
    away a (setArmState g a st L) = away a L := by simp [setArmState]

@[simp] theorem away_clearMark (a : Arm) (L : Live) : away a (clearMark a L) = away a L := rfl

@[simp] theorem away_setWork (a : Arm) (w : Work) (L : Live) : away a (setWork a w L) = away a L :=
  away_updArm a _ L

@[simp] theorem away_clearTxn (a : Arm) (L : Live) : away a (clearTxn a L) = away a L := away_updArm a _ L

@[simp] theorem away_openAt (a : Arm) (g : Setup) (k : FaultKind) (p : Pos) (L : Live) :
    away a (openAt g k p L) = away a L := away_of_still a (still_openAt g k p L)

@[simp] theorem away_openFault (a : Arm) (g : Setup) (k : FaultKind) (s : Subject) (d : FaultDetail) (L : Live) :
    away a (openFault g k s d L) = away a L := away_of_still a (still_openFault g k s d L)

@[simp] theorem away_outcome (a : Arm) (g : Setup) (e : QueueEntry) (o : Outcome) (L : Live) :
    away a (outcome g e o L) = away a L := away_of_still a (still_outcome g e o L)

@[simp] theorem away_setLinkState (a : Arm) (g : Setup) (p : Pos) (st : LinkState) (r : Recovery) (L : Live) :
    away a (setLinkState g p st r L) = away a L := away_of_calm a (calm_setLinkState g p st r L)

@[simp] theorem away_becomeLost (a : Arm) (g : Setup) (p : Pos) (L : Live) : away a (becomeLost g p L) = away a L :=
  away_of_calm a (calm_becomeLost g p L)

@[simp] theorem away_becomeAbsent (a : Arm) (g : Setup) (p : Pos) (L : Live) :
    away a (becomeAbsent g p L) = away a L := away_of_calm a (calm_becomeAbsent g p L)

@[simp] theorem away_darkOrAbsent (a : Arm) (g : Setup) (p : Pos) (L : Live) :
    away a (darkOrAbsent g p L) = away a L := away_of_calm a (calm_darkOrAbsent g p L)

@[simp] theorem away_identified (a : Arm) (g : Setup) (p : Pos) (x : IdentifyAnswer) (L : Live) :
    away a (identified g p x L) = away a L := away_of_calm a (calm_identified g p x L)

@[simp] theorem framed_updLink (p : Pos) (f : LinkRec → LinkRec) (L : Live) : framed (updLink p f L) = framed L := rfl

@[simp] theorem away_setSwitch (a : Arm) (p : Pos) (s : Switch) (L : Live) : away a (setSwitch p s L) = away a L := rfl

/-! ## Arm states (R2, R19, R21, R186) -/

@[simp] theorem away_changeArm (a : Arm) (g : Setup) (st : ArmState) (L : Live) :
    away a (changeArm g a st L) = away a L := by
  unfold changeArm; dsimp only
  split
  · rw [away_of_still a (still_dropReservations ..), away_of_still a (still_dropArmQueries ..)]
    split <;> simp
  · split <;> simp

@[simp] theorem away_enterService (a : Arm) (g : Setup) (L : Live) : away a (enterService g a L) = away a L := by
  unfold enterService; dsimp only
  rw [away_of_still a (still_withdrawCrews ..), away_of_still a (still_withdrawReleases ..),
    away_of_still a (still_refreshNodes ..), away_changeArm]

@[simp] theorem away_leaveService (a : Arm) (g : Setup) (L : Live) : away a (leaveService g a L) = away a L := by
  unfold leaveService; rw [away_of_still a (still_refreshNodes ..), away_changeArm]

@[simp] theorem away_applyHolding (a : Arm) (g : Setup) (L : Live) : away a (applyHolding g a L) = away a L := by
  unfold applyHolding
  split
  · split <;> simp
  · split <;> simp
  · rfl

@[simp] theorem away_putBack (a : Arm) (p : Pos) (c : Option (DisplayCode × CodeSort)) (r : Option DisplayCode)
    (L : Live) : away a (putBack p c r L) = away a L := rfl

@[simp] theorem away_darkFrom (a : Arm) (g : Setup) (k : Nat) (L : Live) : away a (darkFrom g a k L) = away a L :=
  foldl_away a _ (fun _ _ => away_darkOrAbsent ..) _ _

@[simp] theorem away_absentFrom (a : Arm) (g : Setup) (k : Nat) (L : Live) : away a (absentFrom g a k L) = away a L :=
  foldl_away a _ (fun _ _ => away_becomeAbsent ..) _ _

@[simp] theorem away_resetSwitches (a : Arm) (L : Live) : away a (resetSwitches a L) = away a L :=
  foldl_away a _ (fun M p => away_updLink a p _ M) _ _

@[simp] theorem away_cutTxn (a : Arm) (g : Setup) (t : Option Txn) (L : Live) : away a (cutTxn g a t L) = away a L := by
  unfold cutTxn; split <;> simp

@[simp] theorem away_rootChanges (a : Arm) (g : Setup) (L : Live) : away a (rootChanges g a L) = away a L := by
  unfold rootChanges; dsimp only
  split
  · rw [away_resetSwitches, away_darkFrom, away_outcome, foldl_away a _ (fun _ _ => away_outcome ..), away_cutTxn,
      away_updArm]
  · rw [away_resetSwitches, away_darkFrom, foldl_away a _ (fun _ _ => away_outcome ..), away_cutTxn, away_updArm]

@[simp] theorem away_rootOpening (a : Arm) (g : Setup) (b : Bool) (L : Live) :
    away a (rootOpening g a b L) = away a L := by simp [rootOpening]

@[simp] theorem away_armStop (a : Arm) (g : Setup) (L : Live) : away a (armStop g a L) = away a L := by
  unfold armStop; dsimp only; split
  · rw [away_of_still a (still_refreshNodes ..)]; simp
  · simp

@[simp] theorem away_afterTxn (a : Arm) (g : Setup) (L : Live) : away a (afterTxn g a L) = away a L := by
  unfold afterTxn; split
  · rw [away_rootChanges, away_of_still a (still_dropArmQueries ..)]
  · rfl

/-! ## Line work (R5–R8, R17, R18) -/

@[simp] theorem away_shortfallTest (a : Arm) (g : Setup) (L : Live) : away a (shortfallTest g a L) = away a L := by
  unfold shortfallTest; split <;> simp

@[simp] theorem away_holdAtEnd (a : Arm) (g : Setup) (L : Live) : away a (holdAtEnd g a L) = away a L := by
  unfold holdAtEnd; repeat' split
  all_goals simp

@[simp] theorem away_endDiscovery (a : Arm) (g : Setup) (L : Live) : away a (endDiscovery g a L) = away a L := by
  simp [endDiscovery]

@[simp] theorem away_endLocalization (a : Arm) (g : Setup) (L : Live) : away a (endLocalization g a L) = away a L := by
  unfold endLocalization; split <;> simp

@[simp] theorem away_endIsolation (a : Arm) (g : Setup) (b : Bool) (L : Live) :
    away a (endIsolation g a b L) = away a L := by unfold endIsolation; split <;> simp

@[simp] theorem away_beginIsolation (a : Arm) (g : Setup) (t : Nat) (b : Bool) (L : Live) :
    away a (beginIsolation g a t b L) = away a L := by unfold beginIsolation; split <;> simp

@[simp] theorem away_beginLocalization (a : Arm) (g : Setup) (j : Nat) (L : Live) :
    away a (beginLocalization g a j L) = away a L := by
  unfold beginLocalization; dsimp only
  repeat' split
  all_goals simp

@[simp] theorem away_startProbe (a : Arm) (g : Setup) (k : Nat) (L : Live) :
    away a (startProbe g a k L) = away a L := by simp [startProbe]

@[simp] theorem away_localizationTest (a : Arm) (g : Setup) (k : Nat) (L : Live) :
    away a (localizationTest g a k L) = away a L := by
  unfold localizationTest; dsimp only
  repeat' split
  all_goals simp

@[simp] theorem away_locateHighest (a : Arm) (L : Live) : away a (locateHighest a L) = away a L := by
  simp [locateHighest]

@[simp] theorem away_afterLoss (a : Arm) (g : Setup) (k : Nat) (L : Live) :
    away a (afterLoss g a k L) = away a L := by
  unfold afterLoss
  repeat' split
  all_goals simp

@[simp] theorem away_countMiss (a : Arm) (g : Setup) (k : Nat) (L : Live) :
    away a (countMiss g a k L) = away a L := by
  unfold countMiss; dsimp only
  repeat' split
  all_goals simp

@[simp] theorem away_answered (a : Arm) (g : Setup) (p : Pos) (L : Live) : away a (answered g p L) = away a L := by
  unfold answered; dsimp only
  split <;> simp

@[simp] theorem away_walkFrom (a : Arm) (g : Setup) (n k : Nat) (L : Live) :
    away a (walkFrom g a n k L) = away a L := by
  induction n generalizing k L with
  | zero => simp [walkFrom]
  | succ n ih => unfold walkFrom; repeat' split
                 all_goals simp [ih]

@[simp] theorem away_walk (a : Arm) (g : Setup) (k : Nat) (L : Live) : away a (walk g a k L) = away a L :=
  away_walkFrom ..

@[simp] theorem away_startFull (a : Arm) (g : Setup) (L : Live) : away a (startFull g a L) = away a L := by
  unfold startFull; dsimp only
  rw [away_updArm, foldl_away a]
  · simp
  · intro M x; split <;> simp

@[simp] theorem away_startExtension (a : Arm) (g : Setup) (L : Live) : away a (startExtension g a L) = away a L := by
  simp [startExtension]

@[simp] theorem away_beginDiagnosis (a : Arm) (g : Setup) (k : Nat) (L : Live) :
    away a (beginDiagnosis g a k L) = away a L := by
  unfold beginDiagnosis; repeat' split
  all_goals simp

@[simp] theorem away_judge (a : Arm) (g : Setup) (k : Nat) (L : Live) : away a (judge g a k L) = away a L := by
  unfold judge; dsimp only
  repeat' split
  all_goals simp

@[simp] theorem away_diagnose (a : Arm) (g : Setup) (k : Nat) (w : Switch) (x : Sense) (L : Live) :
    away a (diagnose g a k w x L) = away a L := by unfold diagnose; dsimp only; split <;> simp

@[simp] theorem away_diagnoseRoot (a : Arm) (g : Setup) (x : Sense) (L : Live) :
    away a (diagnoseRoot g a x L) = away a L := by unfold diagnoseRoot; split <;> simp

@[simp] theorem away_locate (a : Arm) (g : Setup) (j : Nat) (w : Switch) (x : Sense) (L : Live) :
    away a (locate g a j w x L) = away a L := by unfold locate; dsimp only; split <;> simp

@[simp] theorem away_locateRoot (a : Arm) (g : Setup) (x : Sense) (L : Live) :
    away a (locateRoot g a x L) = away a L := by unfold locateRoot; split <;> simp

@[simp] theorem away_moveTarget (a : Arm) (g : Setup) (t : Nat) (b : Bool) (L : Live) :
    away a (moveTarget g a t b L) = away a L := by simp [moveTarget]

/-! ## The hand-out of transactions (R10–R13) -/

/-- An arm's record but for what a hand-out writes. -/
def armHanded (r : ArmRec) : ArmRec :=
  { r with queue := [], txn := none, resend := none, nextNumber := 0, pollPointer := none }

/-- What the hand-out of transactions leaves: everything but the arms' transactions, command queues, command numbers and
poll pointers, recovery timers that go idle, and display codes that travel with a poll. -/
def handed (L : Live) : Live :=
  { L with
    arms := L.arms.map armHanded
    links := L.links.map fun l => { l with recovery := .idle }
    docks := L.docks.map fun d => { d with code := none, replaced := none } }

theorem handed_updArm (a : Arm) (f : ArmRec → ArmRec) (L : Live) (h : ∀ r, armHanded (f r) = armHanded r) :
    handed (updArm a f L) = handed L := by
  unfold handed updArm
  dsimp only
  rw [map_upd _ _ _ _ (h _)]

@[simp] theorem handed_sendPoll (a : Arm) (k : Nat) (L : Live) : handed (sendPoll a k L) = handed L := by
  have h := handed_updArm a
    (fun r => { r with txn := some (.poll k (L.dock (posAt a k)).code (L.dock (posAt a k)).replaced
                         (L.link (posAt a k)).lastAnswer)
                       pollPointer := some k }) L (fun _ => rfl)
  rw [← h]
  unfold sendPoll handed noteDock
  dsimp only
  rw [map_upd _ _ _ _ rfl]

@[simp] theorem handed_sendRecovery (a : Arm) (k : Nat) (L : Live) : handed (sendRecovery a k L) = handed L := by
  refine (handed_updArm a (fun r => { r with txn := some (.recovery k) }) _ fun _ => rfl).trans ?_
  unfold handed updLink
  dsimp only
  rw [map_upd _ _ _ _ rfl]

@[simp] theorem handed_handOut (a : Arm) (L : Live) : handed (handOut a L) = handed L := by
  unfold handOut
  split
  · split
    · exact handed_updArm _ _ _ fun _ => rfl
    · split
      · exact handed_updArm _ _ _ fun _ => rfl
      · split
        · simp
        · split
          · exact handed_updArm _ _ _ fun _ => rfl
          · split <;> simp
  · rfl

/-- The hand-out leaves the handed part (R10). -/
@[simp] theorem handed_pump (L : Live) : handed (pump L) = handed L := by
  unfold pump
  suffices h : ∀ (xs : List Arm) (M : Live), handed (xs.foldl (fun M a => handOut a M) M) = handed M from h _ _
  intro xs
  induction xs with
  | nil => intro M; rfl
  | cons x xs ih => intro M; simp [List.foldl_cons, ih]

/-- Two states with one handed part have one framed part. -/
theorem framed_of_handed {L M : Live} (h : handed M = handed L) : framed M = framed L := by
  have h1 := congrArg framed h
  exact h1

@[simp] theorem framed_pump (L : Live) : framed (pump L) = framed L := framed_of_handed (handed_pump L)
@[simp] theorem pump_cards (L : Live) : (pump L).cards = L.cards :=
  (congrArg Live.cards (handed_pump L) :)
@[simp] theorem pump_queries (L : Live) : (pump L).queries = L.queries :=
  (congrArg Live.queries (handed_pump L) :)
@[simp] theorem pump_releases (L : Live) : (pump L).releases = L.releases :=
  (congrArg Live.releases (handed_pump L) :)
@[simp] theorem pump_remotes (L : Live) : (pump L).remotes = L.remotes :=
  (congrArg Live.remotes (handed_pump L) :)
@[simp] theorem pump_closing (L : Live) : (pump L).closing = L.closing :=
  (congrArg Live.closing (handed_pump L) :)
@[simp] theorem pump_journal (L : Live) : (pump L).journal = L.journal :=
  (congrArg Live.journal (handed_pump L) :)
@[simp] theorem pump_fill (L : Live) : (pump L).fill = L.fill :=
  (congrArg Live.fill (handed_pump L) :)
@[simp] theorem pump_fillState (L : Live) : (pump L).fillState = L.fillState :=
  (congrArg Live.fillState (handed_pump L) :)
@[simp] theorem pump_visit (L : Live) : (pump L).visit = L.visit :=
  (congrArg Live.visit (handed_pump L) :)
@[simp] theorem pump_crew (L : Live) : (pump L).crew = L.crew :=
  (congrArg Live.crew (handed_pump L) :)
@[simp] theorem pump_faults (L : Live) : (pump L).faults = L.faults :=
  (congrArg Live.faults (handed_pump L) :)
@[simp] theorem pump_nextFault (L : Live) : (pump L).nextFault = L.nextFault :=
  (congrArg Live.nextFault (handed_pump L) :)
@[simp] theorem pump_counters (L : Live) : (pump L).counters = L.counters :=
  (congrArg Live.counters (handed_pump L) :)
@[simp] theorem pump_power (L : Live) : (pump L).power = L.power :=
  (congrArg Live.power (handed_pump L) :)
@[simp] theorem pump_clock (L : Live) : (pump L).clock = L.clock :=
  (congrArg Live.clock (handed_pump L) :)
@[simp] theorem pump_attention (L : Live) : (pump L).attention = L.attention :=
  (congrArg Live.attention (handed_pump L) :)
@[simp] theorem pump_port (L : Live) : (pump L).port = L.port :=
  (congrArg Live.port (handed_pump L) :)
@[simp] theorem pump_boot (L : Live) : (pump L).boot = L.boot :=
  (congrArg Live.boot (handed_pump L) :)
@[simp] theorem pump_powered (L : Live) : (pump L).powered = L.powered :=
  (congrArg Live.powered (handed_pump L) :)
@[simp] theorem pump_storeValid (L : Live) : (pump L).storeValid = L.storeValid :=
  (congrArg Live.storeValid (handed_pump L) :)

/-- A hand-out leaves a dock record but for its display code. -/
theorem pump_dock (L : Live) (p : Pos) :
    { (pump L).dock p with code := none, replaced := none } = { L.dock p with code := none, replaced := none } := by
  have := congrArg (fun M : Live => M.docks[p.val]) (handed_pump L)
  simpa [handed, Live.dock] using this

/-- A hand-out leaves a link record but for its recovery timer. -/
theorem pump_link (L : Live) (p : Pos) :
    { (pump L).link p with recovery := .idle } = { L.link p with recovery := .idle } := by
  have := congrArg (fun M : Live => M.links[p.val]) (handed_pump L)
  simpa [handed, Live.link] using this

/-- A hand-out leaves an arm's state, its root switch, its line work and the power it owes. -/
theorem pump_arm (L : Live) (a : Arm) : armHanded ((pump L).arm a) = armHanded (L.arm a) := by
  have := congrArg (fun M : Live => M.arms[a.val]) (handed_pump L)
  simpa [handed, Live.arm] using this

@[simp] theorem pump_armState (L : Live) (a : Arm) : ((pump L).arm a).state = (L.arm a).state := by
  simpa [armHanded] using congrArg ArmRec.state (pump_arm L a)

@[simp] theorem pump_armWork (L : Live) (a : Arm) : ((pump L).arm a).work = (L.arm a).work := by
  simpa [armHanded] using congrArg ArmRec.work (pump_arm L a)

@[simp] theorem pump_armRoot (L : Live) (a : Arm) : ((pump L).arm a).rootClosed = (L.arm a).rootClosed := by
  simpa [armHanded] using congrArg ArmRec.rootClosed (pump_arm L a)

@[simp] theorem pump_armDiscovery (L : Live) (a : Arm) : ((pump L).arm a).discovery = (L.arm a).discovery := by
  simpa [armHanded] using congrArg ArmRec.discovery (pump_arm L a)

@[simp] theorem pump_dockLink (L : Live) (p : Pos) : ((pump L).dock p).link = (L.dock p).link := by
  simpa using congrArg DockRec.link (pump_dock L p)

@[simp] theorem pump_dockLatch (L : Live) (p : Pos) : ((pump L).dock p).latch = (L.dock p).latch := by
  simpa using congrArg DockRec.latch (pump_dock L p)

@[simp] theorem pump_linkMisses (L : Live) (p : Pos) : ((pump L).link p).misses = (L.link p).misses := by
  simpa using congrArg LinkRec.misses (pump_link L p)

@[simp] theorem pump_linkSwitch (L : Live) (p : Pos) : ((pump L).link p).switch = (L.link p).switch := by
  simpa using congrArg LinkRec.switch (pump_link L p)

/-- An arm that is not STARTING, RUNNING or SERVICE is handed nothing (R2). -/
theorem handOut_inactive {a : Arm} {L : Live} (h : (L.arm a).state.active = false) : handOut a L = L := by
  simp [handOut, h]

/-- An arm with a transaction in progress is handed nothing (R10). -/
theorem handOut_busy {a : Arm} {L : Live} (h : (L.arm a).txn.isSome) : handOut a L = L := by
  obtain ⟨t, ht⟩ := Option.isSome_iff_exists.mp h
  simp [handOut, ht]

/-! ## Answers and timeouts -/

@[simp] theorem away_passProbed (a : Arm) (g : Setup) (L : Live) : away a (passProbed g a L) = away a L := by
  unfold passProbed; repeat' split
  all_goals simp

@[simp] theorem away_delivered (a : Arm) (p : Pos) (r : Option DisplayCode) (L : Live) :
    away a (delivered p r L) = away a L := by
  unfold delivered; repeat' split
  all_goals rfl

@[simp] theorem away_takeEvents (a : Arm) (g : Setup) (p : Pos) (x : PollAnswer) (L : Live) :
    away a (takeEvents g p x L) = away a L := by
  unfold takeEvents; dsimp only
  split
  · rw [away_openAt, foldl_away a _ (fun M e => away_of_still a (still_nodeEvent g p e M))]
  · exact foldl_away a _ (fun M e => away_of_still a (still_nodeEvent g p e M)) _ _

@[simp] theorem away_takeAnswer (a : Arm) (g : Setup) (p : Pos) (x : PollAnswer) (L : Live) :
    away a (takeAnswer g p x L) = away a L := by unfold takeAnswer; split <;> simp

@[simp] theorem away_recovered (a : Arm) (g : Setup) (k : Nat) (x : IdentifyAnswer) (L : Live) :
    away a (recovered g a k x L) = away a L := by unfold recovered; dsimp only; split <;> simp

@[simp] theorem away_locateAnswered (a : Arm) (g : Setup) (k : Nat) (x : IdentifyAnswer) (L : Live) :
    away a (locateAnswered g a k x L) = away a L := by unfold locateAnswered; dsimp only; split <;> simp

@[simp] theorem away_passClosed (a : Arm) (k : Nat) (L : Live) : away a (passClosed a k L) = away a L := by
  unfold passClosed; dsimp only; split <;> simp

@[simp] theorem away_workBeyond (a : Arm) (g : Setup) (k : Nat) (L : Live) :
    away a (workBeyond g a k L) = away a L := by
  unfold workBeyond; repeat' split
  all_goals simp

@[simp] theorem away_passTripped (a : Arm) (g : Setup) (k : Nat) (L : Live) :
    away a (passTripped g a k L) = away a L := by unfold passTripped; dsimp only; split <;> simp

@[simp] theorem away_switchOpened (a : Arm) (g : Setup) (t : Nat) (L : Live) :
    away a (switchOpened g a t L) = away a L := by
  unfold switchOpened; repeat' split
  all_goals simp

@[simp] theorem away_switchStuck (a : Arm) (g : Setup) (t : Nat) (L : Live) :
    away a (switchStuck g a t L) = away a L := by
  unfold switchStuck; repeat' split
  all_goals simp

@[simp] theorem away_openSwitchMissed (a : Arm) (g : Setup) (t : Nat) (L : Live) :
    away a (openSwitchMissed g a t L) = away a L := by
  unfold openSwitchMissed; dsimp only
  repeat' split
  all_goals simp

@[simp] theorem away_probeMissed (a : Arm) (g : Setup) (k : Nat) (L : Live) :
    away a (probeMissed g a k L) = away a L := by
  unfold probeMissed; repeat' split
  all_goals simp

@[simp] theorem away_locateMissed (a : Arm) (g : Setup) (L : Live) : away a (locateMissed g a L) = away a L := by
  unfold locateMissed; repeat' split
  all_goals simp

@[simp] theorem away_recoveryMissed (a b : Arm) (k : Nat) (L : Live) :
    away a (recoveryMissed b k L) = away a L := by unfold recoveryMissed; split <;> simp

/-- Every answer, timeout and wait of an arm leaves the framed part. -/
@[simp] theorem framed_pollAnswered (g : Setup) (a : Arm) (x : PollAnswer) (L : Live) :
    framed (pollAnswered g a x L) = framed L := by
  unfold pollAnswered
  split
  · dsimp only
    rw [framed_pump]
    apply framed_of_away (a := a)
    rw [away_afterTxn, away_of_still a (still_checkLamp ..), away_of_still a (still_retryCloses ..)]
    simp
  · rfl

@[simp] theorem framed_commandAnswered (g : Setup) (a : Arm) (x : CommandAnswer) (L : Live) :
    framed (commandAnswered g a x L) = framed L := by
  unfold commandAnswered
  split
  · split
    · rw [framed_pump]; exact framed_of_away (a := a) (by simp)
    · rfl
  · rfl

@[simp] theorem framed_probeAnswered (g : Setup) (a : Arm) (x : IdentifyAnswer) (L : Live) :
    framed (probeAnswered g a x L) = framed L := by
  unfold probeAnswered
  split
  · dsimp only
    rw [framed_pump]
    apply framed_of_away (a := a)
    rw [away_afterTxn]
    split <;> simp
  · rw [framed_pump]; exact framed_of_away (a := a) (by simp)
  · rfl

@[simp] theorem framed_recoveryAnswered (g : Setup) (a : Arm) (x : IdentifyAnswer) (L : Live) :
    framed (recoveryAnswered g a x L) = framed L := by
  unfold recoveryAnswered
  split
  · rw [framed_pump]; exact framed_of_away (a := a) (by simp)
  · rw [framed_pump]; exact framed_of_away (a := a) (by simp)
  · rfl

@[simp] theorem framed_passPowerAnswered (g : Setup) (a : Arm) (x : PassPowerResult) (L : Live) :
    framed (passPowerAnswered g a x L) = framed L := by
  unfold passPowerAnswered
  split
  · dsimp only
    rw [framed_pump]
    apply framed_of_away (a := a)
    rw [away_afterTxn]
    repeat' split
    all_goals simp
  · rfl

@[simp] theorem framed_reportAnswered (g : Setup) (a : Arm) (w : Switch) (x : Sense) (L : Live) :
    framed (reportAnswered g a w x L) = framed L := by
  unfold reportAnswered
  split
  · dsimp only
    rw [framed_pump]
    apply framed_of_away (a := a)
    rw [away_afterTxn]
    repeat' split
    all_goals simp
  · rfl

@[simp] theorem framed_openSwitchAnswered (g : Setup) (a : Arm) (x : OpenSwitchResult) (L : Live) :
    framed (openSwitchAnswered g a x L) = framed L := by
  unfold openSwitchAnswered
  split
  · dsimp only
    rw [framed_pump]
    apply framed_of_away (a := a)
    rw [away_afterTxn]
    repeat' split
    all_goals simp
  · rfl

@[simp] theorem framed_answerTimeout (g : Setup) (a : Arm) (L : Live) : framed (answerTimeout g a L) = framed L := by
  unfold answerTimeout
  dsimp only
  split
  all_goals first | (rw [framed_pump]; exact framed_of_away (a := a) (by simp)) | rfl

@[simp] theorem framed_identifyTimeout (g : Setup) (a : Arm) (L : Live) :
    framed (identifyTimeout g a L) = framed L := by
  unfold identifyTimeout
  dsimp only
  split
  all_goals first | (rw [framed_pump]; exact framed_of_away (a := a) (by simp)) | rfl

@[simp] theorem framed_recoveryTimer (p : Pos) (L : Live) : framed (recoveryTimer p L) = framed L := by
  unfold recoveryTimer; split
  · rw [framed_pump, framed_updLink]
  · rfl

@[simp] theorem framed_slotExpiry (g : Setup) (a : Arm) (L : Live) : framed (slotExpiry g a L) = framed L := by
  unfold slotExpiry; split
  · rw [framed_pump]; exact framed_of_away (a := a) (by simp)
  · rfl

end Sys2Proof.Machine
end

