-- ==== Sys2Proof/Laws/Power.lean ====
section
/-! SUPPORT. What the power sequencer leaves alone, and what the controllers do to their own arm's state: a change of
state, an arm stop, a root opening, the start of a discovery, the holding of R186. -/

namespace Sys2Proof.Machine

/-! ## The state of the arm itself -/

/-- Arms other than a are what they were, but for their queues. -/
theorem away_armState {a b : Arm} {L M : Live} (h : away a M = away a L) (hb : b ≠ a) :
    (M.arm b).state = (L.arm b).state := by
  simpa [armStill] using congrArg ArmRec.state (away_arm h hb)

@[simp] theorem updArm_armSame (a : Arm) (f : ArmRec → ArmRec) (L : Live) : (updArm a f L).arm a = f (L.arm a) := by
  simp [updArm, Live.arm]

/-- An update that keeps the state keeps every arm's state. -/
theorem updArm_armState (a b : Arm) (f : ArmRec → ArmRec) (L : Live) (h : ∀ r, (f r).state = r.state) :
    ((updArm a f L).arm b).state = (L.arm b).state := by
  have e := upd_get L.arms a b f
  simp only [updArm, Live.arm]
  show (upd L.arms a f)[b.val].state = L.arms[b.val].state
  rw [e]
  split
  · exact h _
  · rfl

@[simp] theorem refill_armSame (g : Setup) (a : Arm) (L : Live) : (refill g L).arm a = L.arm a :=
  arm_congr (refill_arms g L) a

@[simp] theorem setArmState_state (g : Setup) (a : Arm) (st : ArmState) (L : Live) :
    ((setArmState g a st L).arm a).state = st := by
  have h : (setArmState g a st L).arm a = (updArm a (fun r => { r with state := st }) L).arm a := by
    unfold setArmState
    rw [arm_congr (raise_arms _ _) a, refill_armSame]
  rw [h, updArm_armSame]

/-- A change of state gives the arm its new state (R2). -/
@[simp] theorem changeArm_state (g : Setup) (a : Arm) (st : ArmState) (L : Live) :
    ((changeArm g a st L).arm a).state = st := by
  have base : ((if st.active then setArmState g a st L
      else updArm a (fun r => { r with pollPointer := none }) (setArmState g a st L)).arm a).state = st := by
    split
    · simp
    · rw [updArm_armSame]; simp
  unfold changeArm
  dsimp only
  split
  · rw [calm_state (calm_of_still (still_dropReservations ..)), calm_state (calm_of_still (still_dropArmQueries ..))]
    exact base
  · exact base

/-- An arm that enters SERVICE is in SERVICE (R186). -/
@[simp] theorem enterService_state (g : Setup) (a : Arm) (L : Live) : ((enterService g a L).arm a).state = .service := by
  unfold enterService; dsimp only
  rw [calm_state (calm_of_still (still_withdrawCrews ..)), calm_state (calm_of_still (still_withdrawReleases ..)),
    calm_state (calm_of_still (still_refreshNodes ..)), changeArm_state]

/-- An arm that leaves SERVICE is RUNNING (R186). -/
@[simp] theorem leaveService_state (g : Setup) (a : Arm) (L : Live) : ((leaveService g a L).arm a).state = .running := by
  unfold leaveService
  rw [calm_state (calm_of_still (still_refreshNodes ..)), changeArm_state]

/-- The holding of R186 puts a RUNNING arm into SERVICE while it is held, and a SERVICE arm back while it is not. -/
theorem applyHolding_state (g : Setup) (a : Arm) (L : Live) :
    ((applyHolding g a L).arm a).state =
      if (L.arm a).state = .running ∧ heldInService g L a then .service
      else if (L.arm a).state = .service ∧ heldInService g L a = false then .running
      else (L.arm a).state := by
  unfold applyHolding
  cases h : (L.arm a).state <;> cases hh : heldInService g L a <;> simp [h]

/-- What the end of a discovery makes of the arm's state (R2, R8, R186). -/
theorem holdAtEnd_state (g : Setup) (a : Arm) (L : Live) :
    ((holdAtEnd g a L).arm a).state =
      if (L.arm a).state = .starting then (if heldAtEnd g L a then .service else .running)
      else if (L.arm a).state = .running ∨ (L.arm a).state = .service then
        (if heldInService g L a then .service else .running)
      else (L.arm a).state := by
  have raised : (raise .armChange L).arm a = L.arm a := rfl
  unfold holdAtEnd
  cases h : (L.arm a).state <;> cases heldAtEnd g L a <;> cases heldInService g L a <;> simp [h, raised]

/-- The changes of a root opening leave the arm's state (R19). -/
@[simp] theorem rootChanges_state (g : Setup) (a : Arm) (L : Live) :
    ((rootChanges g a L).arm a).state = (L.arm a).state := by
  have calmDark : ∀ (k : Nat) (M : Live), calm (darkFrom g a k M) = calm M := fun k M =>
    foldl_calm _ (fun _ _ => calm_darkOrAbsent ..) _ _
  have calmReset : ∀ M : Live, calm (resetSwitches a M) = calm M := fun M =>
    foldl_calm _ (fun M p => calm_updLink p _ M) _ _
  have calmCut : ∀ (t : Option Txn) (M : Live), calm (cutTxn g a t M) = calm M := by
    intro t M; unfold cutTxn; split
    · exact calm_of_still (still_noteDock _ _ _ fun d => by split <;> rfl)
    · exact calm_of_still (still_outcome ..)
    · rfl
  have calmFold : ∀ (xs : List QueueEntry) (M : Live),
      calm (xs.foldl (fun M e => outcome g e .notSent M) M) = calm M := fun xs M =>
    foldl_calm _ (fun _ _ => calm_of_still (still_outcome ..)) _ _
  unfold rootChanges
  dsimp only
  split
  · rw [calm_state (calmReset _), calm_state (calmDark _ _), calm_state (calm_of_still (still_outcome ..)),
      calm_state (calmFold _ _), calm_state (calmCut _ _), updArm_armSame]
  · rw [calm_state (calmReset _), calm_state (calmDark _ _), calm_state (calmFold _ _), calm_state (calmCut _ _),
      updArm_armSame]

/-- A root opening makes the arm STOPPING (R19). -/
@[simp] theorem rootOpening_state (g : Setup) (a : Arm) (b : Bool) (L : Live) :
    ((rootOpening g a b L).arm a).state = .stopping := by
  unfold rootOpening; rw [rootChanges_state, updArm_armSame]; simp

/-- An arm stop makes the arm STOPPING (R21). -/
@[simp] theorem armStop_state (g : Setup) (a : Arm) (L : Live) : ((armStop g a L).arm a).state = .stopping := by
  unfold armStop; dsimp only
  split
  · rw [calm_state (calm_of_still (still_refreshNodes ..)), updArm_armSame, updArm_armSame]; simp
  · rw [rootChanges_state, updArm_armSame]; simp

/-- A full discovery makes the arm STARTING with its root switch closed, waiting one slot before position 1 (R5). -/
theorem startFull_arm (g : Setup) (a : Arm) (L : Live) :
    let r := (startFull g a L).arm a
    r.state = .starting ∧ r.rootClosed = true ∧ r.discovery = some .full ∧ r.work = .waitSlot 1 := by
  have calmFold : ∀ (xs : List Pos) (M : Live),
      calm (xs.foldl (fun M p => if (M.dock p).link = .dark then M else becomeAbsent g p M) M) = calm M := fun xs M =>
    foldl_calm _ (fun _ _ => by split <;> simp) _ _
  have h : ∀ M : Live, ((List.foldl (fun M p => if (M.dock p).link = .dark then M else becomeAbsent g p M)
      M (armPos a)).arm a).state = (M.arm a).state := fun M => calm_state (calmFold _ _) a
  unfold startFull
  dsimp only
  rw [updArm_armSame]
  exact ⟨by rw [h, changeArm_state], rfl, rfl, rfl⟩

/-! ## Arm sequences (R184, R185) -/

@[simp] theorem framed_setSequence (s : List (StepAction × Arm)) (w : Bool) (L : Live) :
    framed (setSequence s w L) = framed L := rfl

@[simp] theorem framed_keepMembers (g : Setup) (L : Live) : framed (keepMembers g L) = framed L := rfl

@[simp] theorem framed_markShed (a : Arm) (L : Live) : framed (markShed a L) = framed L := rfl

@[simp] theorem framed_markBegun (a : Arm) (L : Live) : framed (markBegun a L) = framed L := rfl

@[simp] theorem framed_takeStep (g : Setup) (s : List (StepAction × Arm)) (L : Live) :
    framed (takeStep g s L) = framed L := by
  induction s generalizing L with
  | nil => rfl
  | cons x rest ih =>
    obtain ⟨act, a⟩ := x
    cases act with
    | stop =>
      unfold takeStep
      split
      · rw [framed_setSequence, framed_markShed, framed_of_away (away_armStop a g L)]
      · exact ih L
    | start =>
      unfold takeStep
      split
      · rw [framed_setSequence, framed_markBegun, framed_of_away (away_startFull a g L)]
      · rfl
      · exact ih L

@[simp] theorem framed_beginSequence (g : Setup) (s : List (StepAction × Arm)) (L : Live) :
    framed (beginSequence g s L) = framed L := by simp [beginSequence]

@[simp] theorem framed_sequenceStep (g : Setup) (L : Live) : framed (sequenceStep g L) = framed L := by
  unfold sequenceStep; split
  · rfl
  · simp

@[simp] theorem framed_resumeStart (g : Setup) (a : Arm) (L : Live) : framed (resumeStart g a L) = framed L := by
  unfold resumeStart; repeat' split
  all_goals simp

/-- The shed set recomputed: framed but for the shed set itself (R183). -/
theorem framed_recomputeShed (g : Setup) (L : Live) :
    framed (recomputeShed g L) =
      framed { L with power := { L.power with shedSet := shedSetOf g L.power.state L.power.returnQuiet } } := by
  unfold recomputeShed; exact framed_beginSequence ..

@[simp] theorem framed_stoppingSense (g : Setup) (a : Arm) (x : Sense) (L : Live) :
    framed (stoppingSense g a x L) = framed L := by
  unfold stoppingSense
  cases x
  all_goals
    dsimp only
    rw [framed_resumeStart]
    refine framed_of_away (a := a) ?_
    try split
    all_goals simp

@[simp] theorem framed_rootSense (g : Setup) (a : Arm) (x : Sense) (L : Live) :
    framed (rootSense g a x L) = framed L := by
  unfold rootSense
  split
  · split
    · rfl
    · rw [framed_pump, framed_stoppingSense]
  · rw [framed_pump]; exact framed_of_away (a := a) (by simp)
  · rw [framed_pump]; exact framed_of_away (a := a) (by simp)
  · rfl

@[simp] theorem framed_stopAll (g : Setup) (L : Live) : framed (stopAll g L) = framed L := by
  refine foldl_framed _ (fun M a => ?_) _ _
  split
  · rw [framed_markShed, framed_of_away (away_armStop a g M)]
  · rfl

/-! ## Power state (R177–R181) -/

/-- A power state set is in force, and POWER CHANGE is raised (R177). -/
theorem setPower_spec (st : PowerState) (L : Live) :
    (setPower st L).power = { L.power with state := st } ∧
      (setPower st L).attention[EventKind.powerChange.idx.val] =
        { pending := true, count := L.attention[EventKind.powerChange.idx.val].count + 1 } := by
  have h := calm_of_still (still_refreshNodes allPos (raise .powerChange { L with power := { L.power with state := st } }))
  unfold setPower
  constructor
  · have hp := congrArg Calm.power h
    simp only [calm, raise_power] at hp
    exact hp
  · exact (framed_powerChange (framed_of_calm h)).trans (raise_spec _ _)

/-- A power state set leaves the clock, the port, the supply and the arms but for their queues. -/
theorem calm_setPower (st : PowerState) (L : Live) :
    calm (setPower st L) = calm (raise .powerChange { L with power := { L.power with state := st } }) :=
  calm_of_still (still_refreshNodes ..)

/-- A power state set leaves the clock. -/
@[simp] theorem setPower_clock (st : PowerState) (L : Live) : (setPower st L).clock = L.clock := by
  have h := congrArg Calm.clock (calm_setPower st L)
  simp only [calm, raise_clock] at h
  exact h

/-- A power state set leaves every arm's state. -/
@[simp] theorem setPower_armState (st : PowerState) (L : Live) (a : Arm) :
    ((setPower st L).arm a).state = (L.arm a).state := by
  have h := calm_state (calm_setPower st L) a
  exact h

/-- What the recomputation of the shed set leaves of the power sequencer, and the set it computes (R183). -/
theorem recomputeShed_spec (g : Setup) (L : Live) :
    (recomputeShed g L).power.state = L.power.state ∧
      (recomputeShed g L).power.returnQuiet = L.power.returnQuiet ∧
      (recomputeShed g L).power.mainsOk = L.power.mainsOk ∧ (recomputeShed g L).power.battLow = L.power.battLow ∧
      (recomputeShed g L).power.shedSet = shedSetOf g L.power.state L.power.returnQuiet ∧
      (recomputeShed g L).clock = L.clock ∧
      (recomputeShed g L).attention[EventKind.powerChange.idx.val] =
        L.attention[EventKind.powerChange.idx.val] := by
  have h := framed_recomputeShed g L
  have state := framed_powerState h
  have quiet := framed_returnQuiet h
  have lines := framed_lines h
  have shed := framed_shedSet h
  have clock := framed_clock h
  have flag := framed_powerChange h
  exact ⟨state, quiet, lines.1, lines.2.1, shed, clock, flag⟩

/-- The shed set of a power state, arm by arm (R183). -/
theorem shedSetOf_get (g : Setup) (st : PowerState) (q : Bool) (a : Arm) :
    (shedSetOf g st q)[a.val] =
      match st with
      | .run => false
      | .quiet => (g.arms[a.val]).nightOff
      | .holdover => !(g.arms[a.val]).holdoverKeep || (q && (g.arms[a.val]).nightOff)
      | .off => true := by
  cases st <;> simp [shedSetOf]

/-- The calm part holds the power sequencer. -/
theorem calm_power {L M : Live} (h : calm M = calm L) : M.power = L.power := congrArg Calm.power h

/-- A change of an arm's state leaves the power sequencer. -/
@[simp] theorem changeArm_power (g : Setup) (a : Arm) (st : ArmState) (L : Live) :
    (changeArm g a st L).power = L.power := by
  unfold changeArm
  dsimp only
  split
  · rw [calm_power (calm_of_still (still_dropReservations ..)), calm_power (calm_of_still (still_dropArmQueries ..))]
    split <;> simp
  · split <;> simp

/-- The changes of a root opening leave the power sequencer. -/
@[simp] theorem rootChanges_power (g : Setup) (a : Arm) (L : Live) : (rootChanges g a L).power = L.power := by
  have dark : ∀ (k : Nat) (M : Live), calm (darkFrom g a k M) = calm M := fun k M =>
    foldl_calm _ (fun _ _ => calm_darkOrAbsent ..) _ _
  have reset : ∀ M : Live, calm (resetSwitches a M) = calm M := fun M =>
    foldl_calm _ (fun M p => calm_updLink p _ M) _ _
  have cut : ∀ (t : Option Txn) (M : Live), calm (cutTxn g a t M) = calm M := by
    intro t M; unfold cutTxn; split
    · exact calm_of_still (still_noteDock _ _ _ fun d => by split <;> rfl)
    · exact calm_of_still (still_outcome ..)
    · rfl
  have fold : ∀ (xs : List QueueEntry) (M : Live),
      calm (xs.foldl (fun M e => outcome g e .notSent M) M) = calm M := fun xs M =>
    foldl_calm _ (fun _ _ => calm_of_still (still_outcome ..)) _ _
  unfold rootChanges
  dsimp only
  split
  · rw [calm_power (reset _), calm_power (dark _ _), calm_power (calm_of_still (still_outcome ..)),
      calm_power (fold _ _), calm_power (cut _ _), updArm_power]
  · rw [calm_power (reset _), calm_power (dark _ _), calm_power (fold _ _), calm_power (cut _ _), updArm_power]

/-- An arm stop leaves the power sequencer (R21). -/
@[simp] theorem armStop_power (g : Setup) (a : Arm) (L : Live) : (armStop g a L).power = L.power := by
  unfold armStop; dsimp only
  split
  · rw [calm_power (calm_of_still (still_refreshNodes ..))]; simp
  · simp

/-- One arm of the stop of every arm. -/
def stopOne (g : Setup) (L : Live) (a : Arm) : Live :=
  if (L.arm a).state.active then markShed a (armStop g a L) else L

/-- One arm's stop, told arm by arm. -/
theorem stopOne_spec (g : Setup) (L : Live) (b a : Arm) :
    ((stopOne g L b).arm a).state = (if a = b ∧ (L.arm b).state.active = true then .stopping else (L.arm a).state) ∧
      (stopOne g L b).power.shedMark[a.val] =
        (if a = b ∧ (L.arm b).state.active = true then true else L.power.shedMark[a.val]) := by
  have mark : ∀ M : Live, (markShed b M).arm a = M.arm a := fun M => rfl
  unfold stopOne
  by_cases hb : (L.arm b).state.active = true
  · rw [if_pos hb]
    by_cases hab : a = b
    · subst hab
      rw [mark, armStop_state]
      simp [markShed, hb]
    · rw [mark, away_armState (away_armStop b g L) hab]
      have e := upd_other (armStop g b L).power.shedMark (fun _ => true) hab
      simp only [markShed, hab, false_and, if_false, true_and]
      rw [e, armStop_power]
  · rw [if_neg hb]
    simp [hb]

/-- The stop of every arm: those that were active are STOPPING with a shed mark, the others as they were (R181). -/
theorem stopAll_spec (g : Setup) (L : Live) (a : Arm) :
    ((stopAll g L).arm a).state = (if (L.arm a).state.active = true then .stopping else (L.arm a).state) ∧
      (stopAll g L).power.shedMark[a.val] =
        (if (L.arm a).state.active = true then true else L.power.shedMark[a.val]) := by
  have h : stopAll g L = stopOne g (stopOne g (stopOne g (stopOne g L 0) 1) 2) 3 := rfl
  rw [h]
  have s0 := fun a => stopOne_spec g L 0 a
  have s1 := fun a => stopOne_spec g (stopOne g L 0) 1 a
  have s2 := fun a => stopOne_spec g (stopOne g (stopOne g L 0) 1) 2 a
  have s3 := fun a => stopOne_spec g (stopOne g (stopOne g (stopOne g L 0) 1) 2) 3 a
  constructor
  · rw [(s3 a).1, (s2 a).1, (s2 3).1, (s1 a).1, (s1 3).1, (s1 2).1, (s0 a).1, (s0 3).1, (s0 2).1, (s0 1).1]
    match a with
    | 0 => simp
    | 1 => simp
    | 2 => simp
    | 3 => simp
  · rw [(s3 a).2, (s2 a).2, (s2 3).1, (s1 a).2, (s1 3).1, (s1 2).1, (s0 a).2, (s0 3).1, (s0 2).1, (s0 1).1]
    match a with
    | 0 => simp
    | 1 => simp
    | 2 => simp
    | 3 => simp

/-! ## Entries into HOLDOVER and OFF (R180, R181) -/

/-- A sequence put in flight leaves the arms. -/
theorem setSequence_arm (s : List (StepAction × Arm)) (w : Bool) (L : Live) (a : Arm) :
    (setSequence s w L).arm a = L.arm a := rfl

/-- The entry into OFF (R181): what it does to the power sequencer, the arms and POWER CHANGE. -/
theorem enterOff_spec (g : Setup) (L : Live) :
    (enterOff g L).power.state = .off ∧ (enterOff g L).power.returnQuiet = L.power.returnQuiet ∧
      (enterOff g L).power.mainsOk = L.power.mainsOk ∧ (enterOff g L).power.battLow = L.power.battLow ∧
      (∀ a : Arm, (enterOff g L).power.shedSet[a.val] = true) ∧ (enterOff g L).clock = L.clock ∧
      (enterOff g L).attention[EventKind.powerChange.idx.val] =
        { pending := true, count := L.attention[EventKind.powerChange.idx.val].count + 1 } ∧
      ∀ a : Arm,
        ((enterOff g L).arm a).state = (if (L.arm a).state.active = true then .stopping else (L.arm a).state) ∧
          ((L.arm a).state.active = true → (enterOff g L).power.shedMark[a.val] = true) := by
  have powerM := (setPower_spec .off L).1
  have flagM := (setPower_spec .off L).2
  have clockM := setPower_clock .off L
  have armM := setPower_armState .off L
  unfold enterOff
  dsimp only
  generalize setPower .off L = M at *
  have hN : calm (if visitOn M then closeVisit g .power M else M) = calm M := by
    split
    · exact calm_of_still (still_closeVisit ..)
    · rfl
  generalize (if visitOn M then closeVisit g .power M else M) = N at *
  have hP := ((framed_stopAll g (setSequence [] false N)).trans (framed_setSequence ..)).trans (framed_of_calm hN)
  have stops := stopAll_spec g (setSequence [] false N)
  have armN : ∀ a : Arm, ((setSequence [] false N).arm a).state = (L.arm a).state := fun a => by
    rw [setSequence_arm, calm_state hN a, armM a]
  generalize stopAll g (setSequence [] false N) = P at *
  have lines := framed_lines hP
  refine ⟨by rw [framed_powerState hP, powerM], by rw [framed_returnQuiet hP, powerM], by rw [lines.1, powerM],
    by rw [lines.2.1, powerM], fun a => by simp, by rw [framed_clock hP, clockM],
    by rw [framed_powerChange hP, flagM], fun a => ?_⟩
  have hs := stops a
  rw [armN a] at hs
  exact ⟨hs.1, fun ha => hs.2.trans (if_pos ha)⟩

/-- HOLDOVER is left for the return state (R180). -/
theorem leaveHoldover_spec (g : Setup) (L : Live) :
    (leaveHoldover g L).power.state = (if L.power.returnQuiet then .quiet else .run) ∧
      (leaveHoldover g L).power.mainsOk = L.power.mainsOk ∧ (leaveHoldover g L).clock = L.clock ∧
      (leaveHoldover g L).attention[EventKind.powerChange.idx.val] =
        { pending := true, count := L.attention[EventKind.powerChange.idx.val].count + 1 } ∧
      ∀ a : Arm, (leaveHoldover g L).power.shedSet[a.val] =
        (L.power.returnQuiet && (g.arms[a.val]).nightOff) := by
  obtain ⟨state, -, mains, -, shed, clock, flag⟩ :=
    recomputeShed_spec g (setPower (if L.power.returnQuiet then .quiet else .run) L)
  obtain ⟨power, raised⟩ := setPower_spec (if L.power.returnQuiet then .quiet else .run) L
  unfold leaveHoldover
  refine ⟨by rw [state, power], by rw [mains, power], by rw [clock, setPower_clock], by rw [flag, raised], fun a => ?_⟩
  rw [shed, shedSetOf_get, power]
  cases L.power.returnQuiet <;> simp

/-- The withdrawals of R77 and R143 leave the calm part. -/
theorem calm_withdrawAtHoldover (g : Setup) (L : Live) : calm (withdrawAtHoldover g L) = calm L := by
  unfold withdrawAtHoldover
  rw [calm_of_still (still_withdrawCrews ..), calm_of_still (still_withdrawReleases ..)]

/-- HOLDOVER entered and its withdrawals made (R180). -/
theorem holdover_spec (g : Setup) (L : Live) :
    (withdrawAtHoldover g (inHoldover L)).power =
        { L.power with state := .holdover, returnQuiet := decide (L.power.state = .quiet) } ∧
      (withdrawAtHoldover g (inHoldover L)).clock = L.clock ∧
      (withdrawAtHoldover g (inHoldover L)).attention[EventKind.powerChange.idx.val] =
        { pending := true, count := L.attention[EventKind.powerChange.idx.val].count + 1 } ∧
      ∀ a : Arm, ((withdrawAtHoldover g (inHoldover L)).arm a).state = (L.arm a).state := by
  have h := calm_withdrawAtHoldover g (inHoldover L)
  have hf := framed_of_calm h
  unfold inHoldover at *
  obtain ⟨power, raised⟩ :=
    setPower_spec .holdover { L with power := { L.power with returnQuiet := L.power.state = .quiet } }
  refine ⟨by rw [calm_power h, power], by rw [framed_clock hf, setPower_clock], by rw [framed_powerChange hf, raised],
    fun a => ?_⟩
  rw [calm_state h a, setPower_armState]
  rfl

/-- The entry into HOLDOVER with the battery good (R180). -/
theorem enterHoldover_spec (g : Setup) (L : Live) (h : L.power.battLow = false) :
    (enterHoldover g L).power.state = .holdover ∧
      (enterHoldover g L).power.returnQuiet = decide (L.power.state = .quiet) ∧
      (enterHoldover g L).power.mainsOk = L.power.mainsOk ∧ (enterHoldover g L).clock = L.clock ∧
      (enterHoldover g L).attention[EventKind.powerChange.idx.val] =
        { pending := true, count := L.attention[EventKind.powerChange.idx.val].count + 1 } ∧
      ∀ a : Arm, (enterHoldover g L).power.shedSet[a.val] =
        (!(g.arms[a.val]).holdoverKeep || (decide (L.power.state = .quiet) && (g.arms[a.val]).nightOff)) := by
  obtain ⟨power, clockM, raised, -⟩ := holdover_spec g L
  obtain ⟨state, quiet, mains, -, shed, clock, flag⟩ := recomputeShed_spec g (withdrawAtHoldover g (inHoldover L))
  unfold enterHoldover
  rw [if_neg (by simp [h])]
  refine ⟨by rw [state, power], by rw [quiet, power], by rw [mains, power], by rw [clock, clockM],
    by rw [flag, raised], fun a => ?_⟩
  rw [shed, shedSetOf_get, power]

/-- The entry into HOLDOVER with the battery low goes on to OFF (R180, R181). -/
theorem enterHoldover_low (g : Setup) (L : Live) (h : L.power.battLow = true) :
    (enterHoldover g L).power.state = .off ∧
      (enterHoldover g L).power.returnQuiet = decide (L.power.state = .quiet) ∧
      (enterHoldover g L).power.mainsOk = L.power.mainsOk ∧ (enterHoldover g L).clock = L.clock ∧
      (enterHoldover g L).attention[EventKind.powerChange.idx.val] =
        { pending := true, count := L.attention[EventKind.powerChange.idx.val].count + 2 } ∧
      ∀ a : Arm, (enterHoldover g L).power.shedSet[a.val] = true ∧
        ((enterHoldover g L).arm a).state = (if (L.arm a).state.active = true then .stopping else (L.arm a).state) ∧
        ((L.arm a).state.active = true → (enterHoldover g L).power.shedMark[a.val] = true) := by
  obtain ⟨power, clockM, raised, armM⟩ := holdover_spec g L
  obtain ⟨state, quiet, mains, -, shed, clock, flag, arms⟩ := enterOff_spec g (withdrawAtHoldover g (inHoldover L))
  unfold enterHoldover
  rw [if_pos h]
  refine ⟨state, by rw [quiet, power], by rw [mains, power], by rw [clock, clockM], ?_, fun a => ?_⟩
  · have two : ∀ n : Byte, n + 1 + 1 = n + 2 := fun n => by rw [BitVec.add_assoc]; rfl
    simp only [flag, raised, two]
  · have h1 := arms a
    rw [armM a] at h1
    exact ⟨shed a, h1⟩

end Sys2Proof.Machine
end

