-- ==== Sys2Proof/Laws/Journal.lean ====
section
/-! SUPPORT. What blocks do to the journal: but for JOURNAL RELEASE and the start-ups they only append to it, each record
numbered one above the last (R113). -/

namespace Sys2Proof.Machine

/-! ## Growth -/

/-- Journal k is journal j with records appended in order (R113). -/
def grows (j k : Journal) : Prop :=
  ∃ rs : List JournalRec, k.ring = j.ring ++ rs ∧ k.lastIssued = j.lastIssued + rs.length ∧
    rs.map (·.seq) = List.range' (j.lastIssued + 1) rs.length

@[simp] theorem grows_rfl (j : Journal) : grows j j := ⟨[], by simp⟩

theorem grows.trans {i j k : Journal} (h : grows i j) (h' : grows j k) : grows i k := by
  obtain ⟨rs, h1, h2, h3⟩ := h
  obtain ⟨ts, h4, h5, h6⟩ := h'
  refine ⟨rs ++ ts, ?_, ?_, ?_⟩
  · rw [h4, h1, List.append_assoc]
  · rw [h5, h2, List.length_append, Nat.add_assoc]
  · rw [List.map_append, h3, h6, h2, List.length_append, ← List.range'_append]
    simp [Nat.add_right_comm]

/-- A fold of growing steps grows. -/
theorem grows_foldl {α : Type} {j : Journal} (f : Live → α → Live)
    (hf : ∀ M x, grows j M.journal → grows j (f M x).journal) (xs : List α) {L : Live} (h : grows j L.journal) :
    grows j (xs.foldl f L).journal := by
  induction xs generalizing L with
  | nil => exact h
  | cons x xs ih => exact ih (hf L x h)

/-- Records appended in order keep the numbering (R113). -/
theorem grows.numbered {j k : Journal} (h : grows j k) (hj : j.numbered = true) : k.numbered = true := by
  obtain ⟨rs, h1, h2, h3⟩ := h
  simp only [Journal.numbered, Bool.and_eq_true, decide_eq_true_eq] at *
  obtain ⟨h4, h5⟩ := hj
  refine ⟨by rw [h1, h2, List.length_append]; omega, ?_⟩
  rw [h1, List.map_append, h5, h3, List.length_append, ← List.range'_append]
  congr 1
  · congr 1; omega
  · congr 1; omega

/-- A record appended with the next number (R113). -/
theorem grows_next {j k : Journal} (h : grows j k) (n : Nat) (at_ : Stamped) (s : Subject) (b : JournalBody) :
    grows j
      { ring := k.ring ++ [{ seq := k.lastIssued + 1, at_ := at_, subject := s, body := b }]
        lastIssued := k.lastIssued + 1, claims := n } :=
  h.trans ⟨[{ seq := k.lastIssued + 1, at_ := at_, subject := s, body := b }], by simp⟩

/-- The claims do not count for the growth. -/
@[simp] theorem grows_claims {j k : Journal} {n : Nat} (h : grows j k) : grows j { k with claims := n } := h

/-! ## Every operation, in the order of Machine/: a journal that grew so far has grown after it -/

@[simp] theorem grows_raise {base : Journal} (k : EventKind) {L : Live} (h : grows base L.journal) :
    grows base (raise k L).journal := by
  simp (maxDischargeDepth := 20) [raise, h]

@[simp] theorem grows_updArm {base : Journal} (a : Arm) (f : ArmRec → ArmRec) {L : Live} (h : grows base L.journal) :
    grows base (updArm a f L).journal := by
  simp (maxDischargeDepth := 20) [updArm, h]

@[simp] theorem grows_updLink {base : Journal} (p : Pos) (f : LinkRec → LinkRec)
    {L : Live} (h : grows base L.journal) :
    grows base (updLink p f L).journal := by
  simp (maxDischargeDepth := 20) [updLink, h]

@[simp] theorem grows_refill {base : Journal} (g : Setup) {L : Live} (h : grows base L.journal) :
    grows base (refill g L).journal := by
  unfold refill; dsimp only; (repeat' split) <;> simp (maxDischargeDepth := 20) [h]

@[simp] theorem grows_updDock {base : Journal} (g : Setup) (p : Pos) (f : DockRec → DockRec)
    {L : Live} (h : grows base L.journal) :
    grows base (updDock g p f L).journal := by
  simp (maxDischargeDepth := 20) [updDock, h]

@[simp] theorem grows_noteDock {base : Journal} (p : Pos) (f : DockRec → DockRec)
    {L : Live} (h : grows base L.journal) :
    grows base (noteDock p f L).journal := by
  simp (maxDischargeDepth := 20) [noteDock, h]

@[simp] theorem grows_setFaults {base : Journal} (g : Setup) (fs : List FaultRec)
    {L : Live} (h : grows base L.journal) :
    grows base (setFaults g fs L).journal := by
  simp (maxDischargeDepth := 20) [setFaults, h]

@[simp] theorem grows_setArmState {base : Journal} (g : Setup) (a : Arm) (st : ArmState)
    {L : Live} (h : grows base L.journal) :
    grows base (setArmState g a st L).journal := by
  simp (maxDischargeDepth := 20) [setArmState, h]

@[simp] theorem grows_append {base : Journal} (at_ : Stamped) (subject : Subject) (body : JournalBody) {L : Live}
    (h : grows base L.journal) : grows base (append at_ subject body L).journal := by
  simp only [append, raise_journal]
  exact grows_next h ..

@[simp] theorem grows_claim {base : Journal} {L : Live} (h : grows base L.journal) :
    grows base (claim L).journal := by
  simp (maxDischargeDepth := 20) [claim, h]

@[simp] theorem grows_appendClaimed {base : Journal} (at_ : Stamped) (subject : Subject) (body : JournalBody) {L : Live}
    (h : grows base L.journal) : grows base (appendClaimed at_ subject body L).journal :=
  grows_append at_ subject body (grows_claims h)

@[simp] theorem grows_moveRecord {base : Journal} (p : Pos) (m : Move) {L : Live} (h : grows base L.journal) :
    grows base (moveRecord p m L).journal :=
  grows_append _ _ _ h

@[simp] theorem grows_bikeMove {base : Journal} (p : Pos) (reason : MoveReason) (bike : Option BikeId)
    {L : Live} (h : grows base L.journal) :
    grows base (bikeMove p reason bike L).journal := by
  unfold bikeMove; split <;> simp (maxDischargeDepth := 20) [h]

@[simp] theorem grows_giveBack {base : Journal} (c : CardId) {L : Live} (h : grows base L.journal) :
    grows base (giveBack c L).journal := by
  simp (maxDischargeDepth := 20) [giveBack, h]

@[simp] theorem grows_charge {base : Journal} (c : CardId) (amount : Money) {L : Live} (h : grows base L.journal) :
    grows base (charge c amount L).2.journal := by
  unfold charge; (repeat' split) <;> simp (maxDischargeDepth := 20) [h]

@[simp] theorem grows_passClosedRecord {base : Journal} (r : CardRec) (k : Closure)
    {L : Live} (h : grows base L.journal) :
    grows base (passClosedRecord r k L).journal :=
  grows_append _ _ _ h

@[simp] theorem grows_closePass {base : Journal} (r : CardRec) (reason : ClosureReason)
    {L : Live} (h : grows base L.journal) :
    grows base (closePass r reason L).journal := by
  unfold closePass; split <;> simp (maxDischargeDepth := 20) [h]

@[simp] theorem grows_passCheck {base : Journal} {L : Live} (h : grows base L.journal) :
    grows base (passCheck L).journal := by
  unfold passCheck; split
  · exact grows_foldl _ (fun M r hM => grows_closePass r _ hM) _ h
  · exact h

@[simp] theorem grows_dropQuery {base : Journal} (c : CardId) {L : Live} (h : grows base L.journal) :
    grows base (dropQuery c L).journal := by
  simp (maxDischargeDepth := 20) [dropQuery, h]

@[simp] theorem grows_dropArmQueries {base : Journal} (a : Arm) {L : Live} (h : grows base L.journal) :
    grows base (dropArmQueries a L).journal := by
  simp (maxDischargeDepth := 20) [dropArmQueries, h]

@[simp] theorem grows_tapLookup {base : Journal} (g : Setup) (c : CardId) (p : Pos)
    {L : Live} (h : grows base L.journal) :
    grows base (tapLookup g c p L).2.journal := by
  unfold tapLookup; (repeat' split) <;> simp (maxDischargeDepth := 20) [h]

@[simp] theorem grows_enqueue {base : Journal} (e : QueueEntry) {L : Live} (h : grows base L.journal) :
    grows base (enqueue e L).journal := by
  simp (maxDischargeDepth := 20) [enqueue, h]

@[simp] theorem grows_offer {base : Journal} (p : Pos) (c : NodeCommand) (i : Issuer)
    {L : Live} (h : grows base L.journal) :
    grows base (offer p c i L).2.journal := by
  unfold offer; split <;> simp (maxDischargeDepth := 20) [h]

theorem grows_offer_eq {base : Journal} {p : Pos} {c : NodeCommand} {i : Issuer} {L M : Live} {o : Offered}
    (e : offer p c i L = (o, M)) (h : grows base L.journal) : grows base M.journal := by
  have := grows_offer p c i h
  rw [e] at this; exact this

@[simp] theorem grows_offerUnlatch {base : Journal} (g : Setup) (p : Pos) (stamp : Option Stamp) (i : Issuer) {L : Live}
    (h : grows base L.journal) : grows base (offerUnlatch g p stamp i L).2.journal := by
  unfold offerUnlatch; split
  · next e => exact grows_updDock g p _ (grows_offer_eq e h)
  · exact grows_offer _ _ _ h

theorem grows_offerUnlatch_eq {base : Journal} {g : Setup} {p : Pos} {s : Option Stamp} {i : Issuer} {L M : Live}
    {o : Offered} (e : offerUnlatch g p s i L = (o, M)) (h : grows base L.journal) : grows base M.journal := by
  have := grows_offerUnlatch g p s i h
  rw [e] at this; exact this

@[simp] theorem grows_withdrawUnlatch {base : Journal} (g : Setup) (p : Pos) {L : Live} (h : grows base L.journal) :
    grows base (withdrawUnlatch g p L).journal := by
  simp (maxDischargeDepth := 20) [withdrawUnlatch, h]

@[simp] theorem grows_placeMessage {base : Journal} (p : Pos) (c : DisplayCode)
    {L : Live} (h : grows base L.journal) :
    grows base (placeMessage p c L).journal := by
  simp (maxDischargeDepth := 20) [placeMessage, h]

@[simp] theorem grows_placeResting {base : Journal} (p : Pos) (c : DisplayCode)
    {L : Live} (h : grows base L.journal) :
    grows base (placeResting p c L).journal := by
  simp (maxDischargeDepth := 20) [placeResting, h]

@[simp] theorem grows_refreshCode {base : Journal} (p : Pos) {L : Live} (h : grows base L.journal) :
    grows base (refreshCode p L).journal := by
  unfold refreshCode; (repeat' split) <;> simp (maxDischargeDepth := 20) [h]

@[simp] theorem grows_placeChosen {base : Journal} (p : Pos) {L : Live} (h : grows base L.journal) :
    grows base (placeChosen p L).journal := by
  unfold placeChosen; split <;> simp (maxDischargeDepth := 20) [h]

@[simp] theorem grows_refreshCodes {base : Journal} (ps : List Pos) {L : Live} (h : grows base L.journal) :
    grows base (refreshCodes ps L).journal := by
  unfold refreshCodes; exact grows_foldl _ (fun M x hM => by simp [hM]) _ h

@[simp] theorem grows_checkLamp {base : Journal} (p : Pos) {L : Live} (h : grows base L.journal) :
    grows base (checkLamp p L).journal := by
  unfold checkLamp; split <;> simp (maxDischargeDepth := 20) [h]

@[simp] theorem grows_checkLamps {base : Journal} (ps : List Pos) {L : Live} (h : grows base L.journal) :
    grows base (checkLamps ps L).journal := by
  unfold checkLamps; exact grows_foldl _ (fun M x hM => by simp [hM]) _ h

@[simp] theorem grows_refreshNodes {base : Journal} (ps : List Pos) {L : Live} (h : grows base L.journal) :
    grows base (refreshNodes ps L).journal := by
  simp (maxDischargeDepth := 20) [refreshNodes, h]

@[simp] theorem grows_updClosing {base : Journal} (b : BikeId) (start : Minute) (f : ClosingRec → ClosingRec)
    {L : Live} (h : grows base L.journal) :
    grows base (updClosing b start f L).journal := by
  simp (maxDischargeDepth := 20) [updClosing, h]

@[simp] theorem grows_removeClosing {base : Journal} (b : BikeId) (start : Minute)
    {L : Live} (h : grows base L.journal) :
    grows base (removeClosing b start L).journal := by
  simp (maxDischargeDepth := 20) [removeClosing, h]

@[simp] theorem grows_offerClose {base : Journal} (b : BikeId) (start : Minute)
    {L : Live} (h : grows base L.journal) :
    grows base (offerClose b start L).journal := by
  unfold offerClose; split
  · exact h
  · split
    · simp [h]
    · split <;> (next e => exact grows_updClosing _ _ _ (grows_offer_eq e h))

@[simp] theorem grows_beginRound {base : Journal} (b : BikeId) (start : Minute)
    {L : Live} (h : grows base L.journal) :
    grows base (beginRound b start L).journal := by
  simp (maxDischargeDepth := 20) [beginRound, h]

@[simp] theorem grows_resight {base : Journal} (t : Tag) {L : Live} (h : grows base L.journal) :
    grows base (resight t L).journal := by
  unfold resight; (repeat' split) <;> simp (maxDischargeDepth := 20) [h]

@[simp] theorem grows_makeClearing {base : Journal} (b : BikeId) (start : Minute) (p : Pos)
    {L : Live} (h : grows base L.journal) :
    grows base (makeClearing b start p L).journal := by
  unfold makeClearing; (repeat' split) <;> simp (maxDischargeDepth := 20) [h]

@[simp] theorem grows_retryCloses {base : Journal} (p : Pos) {L : Live} (h : grows base L.journal) :
    grows base (retryCloses p L).journal := by
  unfold retryCloses; exact grows_foldl _ (fun M x hM => by simp [hM]) _ h

@[simp] theorem grows_stoppedRound {base : Journal} (p : Pos) {L : Live} (h : grows base L.journal) :
    grows base (stoppedRound p L).journal := by
  unfold stoppedRound; (repeat' split) <;> simp (maxDischargeDepth := 20) [h]

@[simp] theorem grows_dropReservation {base : Journal} (g : Setup) (p : Pos) {L : Live} (h : grows base L.journal) :
    grows base (dropReservation g p L).journal := by
  unfold dropReservation; split <;> simp (maxDischargeDepth := 20) [h]

@[simp] theorem grows_dropReservations {base : Journal} (g : Setup) (ps : List Pos)
    {L : Live} (h : grows base L.journal) :
    grows base (dropReservations g ps L).journal := by
  unfold dropReservations; exact grows_foldl _ (fun M x hM => by simp [hM]) _ h

@[simp] theorem grows_dropPickup {base : Journal} (g : Setup) (p : Pos) {L : Live} (h : grows base L.journal) :
    grows base (dropPickup g p L).journal := by
  unfold dropPickup; split <;> simp (maxDischargeDepth := 20) [h]

@[simp] theorem grows_endCrew {base : Journal} (p : Pos) {L : Live} (h : grows base L.journal) :
    grows base (endCrew p L).journal := by
  simp (maxDischargeDepth := 20) [endCrew, h]

@[simp] theorem grows_withdrawCrew {base : Journal} (g : Setup) (code : Option DisplayCode) (p : Pos)
    {L : Live} (h : grows base L.journal) :
    grows base (withdrawCrew g code p L).journal := by
  unfold withdrawCrew; (repeat' split) <;> simp (maxDischargeDepth := 20) [h]

@[simp] theorem grows_barSet {base : Journal} (g : Setup) (p : Pos) {L : Live} (h : grows base L.journal) :
    grows base (barSet g p L).journal := by
  simp (maxDischargeDepth := 20) [barSet, h]

@[simp] theorem grows_barChange {base : Journal} (g : Setup) (p : Pos) (before : Bool)
    {L : Live} (h : grows base L.journal) :
    grows base (barChange g p before L).journal := by
  unfold barChange; (repeat' split) <;> simp (maxDischargeDepth := 20) [h]

@[simp] theorem grows_barChangeOf {base : Journal} (g : Setup) (s : Subject) (before : Bool)
    {L : Live} (h : grows base L.journal) :
    grows base (barChangeOf g s before L).journal := by
  unfold barChangeOf; split <;> simp (maxDischargeDepth := 20) [h]

@[simp] theorem grows_updFault {base : Journal} (g : Setup) (k : FaultKind) (s : Subject) (f : FaultRec → FaultRec)
    {L : Live} (h : grows base L.journal) :
    grows base (updFault g k s f L).journal := by
  simp (maxDischargeDepth := 20) [updFault, h]

@[simp] theorem grows_faultOpenedRecord {base : Journal} (f : FaultRec) {L : Live} (h : grows base L.journal) :
    grows base (faultOpenedRecord f L).journal :=
  grows_append _ _ _ h

@[simp] theorem grows_newFault {base : Journal} (g : Setup) (k : FaultKind) (s : Subject) (detail : FaultDetail)
    {L : Live} (h : grows base L.journal) :
    grows base (newFault g k s detail L).journal := by
  unfold newFault; dsimp only; (repeat' split) <;> simp (maxDischargeDepth := 20) [h]

@[simp] theorem grows_openPlaced {base : Journal} (g : Setup) (k : FaultKind) (s : Subject) (detail : FaultDetail)
    {L : Live} (h : grows base L.journal) :
    grows base (openPlaced g k s detail L).journal := by
  unfold openPlaced; (repeat' split) <;> simp (maxDischargeDepth := 20) [h]

@[simp] theorem grows_dropMarkedPickups {base : Journal} (g : Setup) (b : BikeId)
    {L : Live} (h : grows base L.journal) :
    grows base (dropMarkedPickups g b L).journal := by
  unfold dropMarkedPickups
  refine grows_foldl _ (fun M x hM => ?_) _ h
  split
  · split
    · exact grows_dropPickup g x hM
    · exact hM
  · exact hM

@[simp] theorem grows_openFault {base : Journal} (g : Setup) (k : FaultKind) (s : Subject) (detail : FaultDetail)
    {L : Live} (h : grows base L.journal) :
    grows base (openFault g k s detail L).journal := by
  unfold openFault; (repeat' split) <;> simp (maxDischargeDepth := 20) [h]

@[simp] theorem grows_openAt {base : Journal} (g : Setup) (k : FaultKind) (p : Pos)
    {L : Live} (h : grows base L.journal) :
    grows base (openAt g k p L).journal := by
  simp (maxDischargeDepth := 20) [openAt, h]

@[simp] theorem grows_faultClearedRecord {base : Journal} (f : FaultRec) {L : Live} (h : grows base L.journal) :
    grows base (faultClearedRecord f L).journal := by
  unfold faultClearedRecord; split
  · exact grows_append _ _ _ h
  · exact h

@[simp] theorem grows_putFault {base : Journal} (g : Setup) (n : Nat) (f : Option FaultRec)
    {L : Live} (h : grows base L.journal) :
    grows base (putFault g n f L).journal := by
  simp (maxDischargeDepth := 20) [putFault, h]

@[simp] theorem grows_clearFault {base : Journal} (g : Setup) (means : Means) (f : FaultRec)
    {L : Live} (h : grows base L.journal) :
    grows base (clearFault g means f L).journal := by
  unfold clearFault; (repeat' split) <;> simp (maxDischargeDepth := 20) [h]

@[simp] theorem grows_clearFaults {base : Journal} (g : Setup) (means : Means) (fs : List FaultRec)
    {L : Live} (h : grows base L.journal) :
    grows base (clearFaults g means fs L).journal := by
  unfold clearFaults; exact grows_foldl _ (fun M x hM => by simp [hM]) _ h

@[simp] theorem grows_clearLive {base : Journal} (g : Setup) (means : Means) (k : FaultKind) (s : Subject)
    {L : Live} (h : grows base L.journal) :
    grows base (clearLive g means k s L).journal := by
  unfold clearLive; split <;> simp (maxDischargeDepth := 20) [h]

@[simp] theorem grows_serveFault {base : Journal} (g : Setup) (n : Nat) {L : Live} (h : grows base L.journal) :
    grows base (serveFault g n L).journal := by
  unfold serveFault; (repeat' split) <;> simp (maxDischargeDepth := 20) [h]

@[simp] theorem grows_unbarPosition {base : Journal} (g : Setup) (p : Pos) {L : Live} (h : grows base L.journal) :
    grows base (unbarPosition g p L).journal := by
  simp (maxDischargeDepth := 20) [unbarPosition, h]

@[simp] theorem grows_openServiceDue {base : Journal} (g : Setup) (p : Pos) (preset : Nat)
    {L : Live} (h : grows base L.journal) :
    grows base (openServiceDue g p preset L).journal := by
  simp (maxDischargeDepth := 20) [openServiceDue, h]

@[simp] theorem grows_transition {base : Journal} (g : Setup) (p : Pos) {L : Live} (h : grows base L.journal) :
    grows base (transition g p L).journal := by
  unfold transition; dsimp only; (repeat' split) <;> simp (maxDischargeDepth := 20) [h]

@[simp] theorem grows_updVisit {base : Journal} (f : VisitRec → VisitRec) {L : Live} (h : grows base L.journal) :
    grows base (updVisit f L).journal := by
  simp (maxDischargeDepth := 20) [updVisit, h]

@[simp] theorem grows_vanVisitRecord {base : Journal} (v : VisitRec) {L : Live} (h : grows base L.journal) :
    grows base (vanVisitRecord v L).journal := by
  unfold vanVisitRecord; split
  · exact grows_append _ _ _ h
  · exact h

@[simp] theorem grows_writeSummary {base : Journal} {L : Live} (h : grows base L.journal) :
    grows base (writeSummary L).journal := by
  unfold writeSummary; (repeat' split) <;> simp (maxDischargeDepth := 20) [h]

@[simp] theorem grows_closeVisit {base : Journal} (g : Setup) (reason : CloseReason)
    {L : Live} (h : grows base L.journal) :
    grows base (closeVisit g reason L).journal := by
  unfold closeVisit; dsimp only
  refine grows_raise _ (grows_writeSummary (grows_foldl _ (fun M x hM => grows_withdrawCrew g _ x hM) _ ?_))
  exact grows_dropReservations g _ (L := { L with visit := _ }) h

@[simp] theorem grows_completionTest {base : Journal} (g : Setup) {L : Live} (h : grows base L.journal) :
    grows base (completionTest g L).journal := by
  unfold completionTest; (repeat' split) <;> simp (maxDischargeDepth := 20) [h]

@[simp] theorem grows_countDone {base : Journal} (g : Setup) (f : VisitRec → VisitRec)
    {L : Live} (h : grows base L.journal) :
    grows base (countDone g f L).journal := by
  unfold countDone; split <;> simp (maxDischargeDepth := 20) [h]

@[simp] theorem grows_visitTap {base : Journal} (card : CardId) {L : Live} (h : grows base L.journal) :
    grows base (visitTap card L).journal := by
  unfold visitTap; (repeat' split) <;> simp (maxDischargeDepth := 20) [h]

@[simp] theorem grows_reserve {base : Journal} (g : Setup) (r : Reservation) (ps : List Pos)
    {L : Live} (h : grows base L.journal) :
    grows base (reserve g r ps L).journal := by
  unfold reserve; exact grows_foldl _ (fun M x hM => by simp [hM]) _ h

@[simp] theorem grows_crewUnlatch {base : Journal} (g : Setup) (p : Pos) (purpose : Purpose) (card : CardId)
    (counted : Bool) {L : Live} (h : grows base L.journal) :
    grows base (crewUnlatch g p purpose card counted L).journal := by
  unfold crewUnlatch; dsimp only; split
  · next e => simpa using grows_offerUnlatch_eq e h
  · next e => exact grows_placeMessage p _ (grows_offerUnlatch_eq e h)

@[simp] theorem grows_crewHeld {base : Journal} (g : Setup) (p : Pos) (card : CardId)
    {L : Live} (h : grows base L.journal) :
    grows base (crewHeld g p card L).journal := by
  unfold crewHeld; dsimp only; (repeat' split) <;> simp (maxDischargeDepth := 20) [h]

@[simp] theorem grows_crewTap {base : Journal} (g : Setup) (p : Pos) (r : CardRec)
    {L : Live} (h : grows base L.journal) :
    grows base (crewTap g p r L).journal := by
  unfold crewTap; dsimp only; (repeat' split) <;> simp (maxDischargeDepth := 20) [h]

@[simp] theorem grows_crewClear {base : Journal} (g : Setup) (p : Pos) (r : CardRec)
    {L : Live} (h : grows base L.journal) :
    grows base (crewClear g p r L).journal := by
  unfold crewClear; dsimp only; (repeat' split) <;> simp (maxDischargeDepth := 20) [h]

@[simp] theorem grows_pickupTaken {base : Journal} (g : Setup) (p : Pos) (c : CrewAction) (bike : Option BikeId)
    {L : Live} (h : grows base L.journal) :
    grows base (pickupTaken g p c bike L).journal := by
  unfold pickupTaken; split <;> simp (maxDischargeDepth := 20) [h]

@[simp] theorem grows_collectionTaken {base : Journal} (g : Setup) (p : Pos) (c : CrewAction) (bike : Option BikeId)
    {L : Live} (h : grows base L.journal) :
    grows base (collectionTaken g p c bike L).journal := by
  unfold collectionTaken; (repeat' split) <;> simp (maxDischargeDepth := 20) [h]

@[simp] theorem grows_crewTaken {base : Journal} (g : Setup) (p : Pos) (c : CrewAction) (bike : Option BikeId)
    {L : Live} (h : grows base L.journal) :
    grows base (crewTaken g p c bike L).journal := by
  unfold crewTaken; split <;> simp (maxDischargeDepth := 20) [h]

@[simp] theorem grows_dropMeets {base : Journal} (g : Setup) (p : Pos) {L : Live} (h : grows base L.journal) :
    grows base (dropMeets g p L).journal := by
  unfold dropMeets; (repeat' split) <;> simp (maxDischargeDepth := 20) [h]

@[simp] theorem grows_vanDrop {base : Journal} (g : Setup) (p : Pos) (bike : BikeId)
    {L : Live} (h : grows base L.journal) :
    grows base (vanDrop g p bike L).journal := by
  simp (maxDischargeDepth := 20) [vanDrop, h]

@[simp] theorem grows_moveReservation {base : Journal} (g : Setup) (p : Pos) {L : Live} (h : grows base L.journal) :
    grows base (moveReservation g p L).journal := by
  unfold moveReservation; (repeat' split) <;> simp (maxDischargeDepth := 20) [h]

@[simp] theorem grows_endRemote {base : Journal} (r : Release) (result : RemoteResult)
    {L : Live} (h : grows base L.journal) :
    grows base (endRemote r result L).journal := by
  unfold endRemote; split <;> simp (maxDischargeDepth := 20) [h]

@[simp] theorem grows_openClockFault {base : Journal} (g : Setup) (p : Pos) (s : Slot)
    {L : Live} (h : grows base L.journal) :
    grows base (openClockFault g p s L).journal := by
  unfold openClockFault; split <;> simp (maxDischargeDepth := 20) [h]

@[simp] theorem grows_giveReturn {base : Journal} (g : Setup) (p : Pos) (t : Tag) (s : Stamp) (finish : Minute)
    (fill : FillState) (late : Bool) {L : Live} (h : grows base L.journal) :
    grows base (giveReturn g p t s finish fill late L).journal := by
  simp (maxDischargeDepth := 20) [giveReturn, h]

@[simp] theorem grows_heldArrival {base : Journal} (g : Setup) (p : Pos) {L : Live} (h : grows base L.journal) :
    grows base (heldArrival g p L).journal := by
  unfold heldArrival; (repeat' split) <;> simp (maxDischargeDepth := 20) [h]

@[simp] theorem grows_hireEndRecord {base : Journal} (p : Pos) (s : Slot) {L : Live} (h : grows base L.journal) :
    grows base (hireEndRecord p s L).journal :=
  grows_append _ _ _ h

@[simp] theorem grows_slotWritten {base : Journal} (g : Setup) (p : Pos) (s : Slot)
    {L : Live} (h : grows base L.journal) :
    grows base (slotWritten g p s L).journal := by
  simp (maxDischargeDepth := 20) [slotWritten, h]

@[simp] theorem grows_journalStep {base : Journal} (g : Setup) (p : Pos) (s : Slot)
    {L : Live} (h : grows base L.journal) :
    grows base (journalStep g p s L).journal := by
  unfold journalStep; split <;> simp (maxDischargeDepth := 20) [h]

@[simp] theorem grows_listStep {base : Journal} (g : Setup) (p : Pos) (s : Slot)
    {L : Live} (h : grows base L.journal) :
    grows base (listStep g p s L).journal := by
  unfold listStep; split <;> simp (maxDischargeDepth := 20) [h]

theorem grows_charge_eq {base : Journal} {c : CardId} {n : Money} {L M : Live} {o : Option Money}
    (e : charge c n L = (o, M)) (h : grows base L.journal) : grows base M.journal := by
  have := grows_charge c n h
  rw [e] at this; exact this

@[simp] theorem grows_settleFigures {base : Journal} (s : Slot) {L : Live} (h : grows base L.journal) :
    grows base (settleFigures s L).2.journal := by
  unfold settleFigures; dsimp only; split
  · split <;> (next e => exact grows_charge_eq e h)
  · exact h

@[simp] theorem grows_settle {base : Journal} (g : Setup) (p : Pos) (s : Slot) {L : Live} (h : grows base L.journal) :
    grows base (settle g p s L).journal := by
  simp (maxDischargeDepth := 20) [settle, h]

@[simp] theorem grows_settleOpen {base : Journal} (g : Setup) (p : Pos) {L : Live} (h : grows base L.journal) :
    grows base (settleOpen g p L).journal := by
  unfold settleOpen; (repeat' split) <;> simp (maxDischargeDepth := 20) [h]

@[simp] theorem grows_serveList {base : Journal} (g : Setup) {L : Live} (h : grows base L.journal) :
    grows base (serveList g L).journal := by
  unfold serveList
  refine grows_foldl _ (fun M x hM => ?_) _ h
  split
  · split
    · exact grows_journalStep g x _ hM
    · exact hM
  · exact hM

@[simp] theorem grows_leaveClosing {base : Journal} (g : Setup) (b : BikeId) (start : Minute)
    {L : Live} (h : grows base L.journal) :
    grows base (leaveClosing g b start L).journal := by
  unfold leaveClosing; split <;> simp (maxDischargeDepth := 20) [h]

@[simp] theorem grows_priceLate {base : Journal} (g : Setup) (p : Pos) {L : Live} (h : grows base L.journal) :
    grows base (priceLate g p L).journal := by
  unfold priceLate; (repeat' split) <;> simp (maxDischargeDepth := 20) [h]

@[simp] theorem grows_priceAllLate {base : Journal} (g : Setup) {L : Live} (h : grows base L.journal) :
    grows base (priceAllLate g L).journal := by
  unfold priceAllLate; exact grows_foldl _ (fun M x hM => by simp [hM]) _ h

@[simp] theorem grows_serveMove {base : Journal} (p : Pos) {L : Live} (h : grows base L.journal) :
    grows base (serveMove p L).journal := by
  unfold serveMove; split
  · exact grows_moveRecord p _ (grows_noteDock p _ h)
  · exact h

@[simp] theorem grows_serveOne {base : Journal} (g : Setup) (w : Writer) {L : Live} (h : grows base L.journal) :
    grows base (serveOne g w L).journal := by
  unfold serveOne; (repeat' split) <;> simp (maxDischargeDepth := 20) [h]

theorem grows_serveUpTo {base : Journal} (g : Setup) (n : Nat) {L : Live} (h : grows base L.journal) :
    grows base (serveUpTo g n L).journal := by
  induction n generalizing L with
  | zero => exact h
  | succ n ih =>
    unfold serveUpTo; split
    · exact h
    · split
      · exact h
      · exact ih (grows_serveOne g _ h)

@[simp] theorem grows_serve {base : Journal} (g : Setup) {L : Live} (h : grows base L.journal) :
    grows base (serve g L).journal :=
  grows_serveUpTo g _ h

@[simp] theorem grows_dropClaim {base : Journal} (g : Setup) {L : Live} (h : grows base L.journal) :
    grows base (dropClaim g L).journal := by
  simp (maxDischargeDepth := 20) [dropClaim, h]

@[simp] theorem grows_removeRelease {base : Journal} (p : Pos) {L : Live} (h : grows base L.journal) :
    grows base (removeRelease p L).journal := by
  simp (maxDischargeDepth := 20) [removeRelease, h]

@[simp] theorem grows_releaseFails {base : Journal} (g : Setup) (r : Release) (result : RemoteResult)
    {L : Live} (h : grows base L.journal) :
    grows base (releaseFails g r result L).journal := by
  simp (maxDischargeDepth := 20) [releaseFails, h]

@[simp] theorem grows_releaseTaken {base : Journal} (r : Release) (late : Bool)
    {L : Live} (h : grows base L.journal) :
    grows base (releaseTaken r late L).journal := by
  simp (maxDischargeDepth := 20) [releaseTaken, h]

@[simp] theorem grows_emptyLatch {base : Journal} (g : Setup) (p : Pos) {L : Live} (h : grows base L.journal) :
    grows base (emptyLatch g p L).journal := by
  simp (maxDischargeDepth := 20) [emptyLatch, h]

@[simp] theorem grows_withdrawRelease {base : Journal} (g : Setup) (code : DisplayCode) (p : Pos)
    {L : Live} (h : grows base L.journal) :
    grows base (withdrawRelease g code p L).journal := by
  unfold withdrawRelease; (repeat' split) <;> simp (maxDischargeDepth := 20) [h]

@[simp] theorem grows_withdrawReleases {base : Journal} (g : Setup) (code : DisplayCode) (ps : List Pos)
    {L : Live} (h : grows base L.journal) :
    grows base (withdrawReleases g code ps L).journal := by
  unfold withdrawReleases; exact grows_foldl _ (fun M x hM => by simp [hM]) _ h

@[simp] theorem grows_withdrawCrews {base : Journal} (g : Setup) (code : DisplayCode) (ps : List Pos)
    {L : Live} (h : grows base L.journal) :
    grows base (withdrawCrews g code ps L).journal := by
  unfold withdrawCrews; exact grows_foldl _ (fun M x hM => by simp [hM]) _ h

@[simp] theorem grows_heldOrReturn {base : Journal} (g : Setup) (p : Pos) (t : Tag) (s : Stamp) (fill : FillState)
    {L : Live} (h : grows base L.journal) :
    grows base (heldOrReturn g p t s fill L).journal := by
  unfold heldOrReturn; split <;> simp (maxDischargeDepth := 20) [h]

@[simp] theorem grows_dropSettled {base : Journal} (g : Setup) (p : Pos) {L : Live} (h : grows base L.journal) :
    grows base (dropSettled g p L).journal := by
  unfold dropSettled; split <;> simp (maxDischargeDepth := 20) [h]

@[simp] theorem grows_settleElsewhere {base : Journal} (g : Setup) (r : Release) {L : Live}
    (h : grows base L.journal) :
    grows base (settleElsewhere g r L).journal := by
  unfold settleElsewhere; simp (maxDischargeDepth := 20) [h]

@[simp] theorem grows_arrivalOpen {base : Journal} (g : Setup) (p : Pos) (t : Tag) (s : Stamp) (fill : FillState)
    {L : Live} (h : grows base L.journal) :
    grows base (arrivalOpen g p t s fill L).journal := by
  unfold arrivalOpen; (repeat' split) <;> simp (maxDischargeDepth := 20) [h]

@[simp] theorem grows_arrival {base : Journal} (g : Setup) (p : Pos) (snap : Snapshot) (fill : FillState)
    {L : Live} (h : grows base L.journal) :
    grows base (arrival g p snap fill L).journal := by
  unfold arrival; (repeat' split) <;> simp (maxDischargeDepth := 20) [h]

@[simp] theorem grows_initialSnapshot {base : Journal} (g : Setup) (p : Pos) (snap : Option Snapshot)
    (fill : FillState) {L : Live} (h : grows base L.journal) :
    grows base (initialSnapshot g p snap fill L).journal := by
  unfold initialSnapshot; dsimp only; (repeat' split) <;> simp (maxDischargeDepth := 20) [h]

theorem grows_takeOut {base : Journal} {c : CardId} {L M : Live} (e : takeOut? c L = some M) (h : grows base L.journal) :
    grows base M.journal := by
  unfold takeOut? at e
  split at e
  · split at e
    · cases e; exact h
    · cases e
  · cases e

@[simp] theorem grows_decideRecord {base : Journal} (g : Setup) (p : Pos) (r : CardRec) (remote : Bool) {L : Live}
    (h : grows base L.journal) : grows base (decideRecord g p r remote L).2.journal := by
  unfold decideRecord; split
  · exact h
  · split
    · exact h
    · split
      · exact h
      · split
        · next e _ => exact grows_offerUnlatch g p _ _ (grows_claim (grows_takeOut e h))
        · exact h

theorem grows_tapLookup_eq {base : Journal} {g : Setup} {c : CardId} {p : Pos} {L M : Live} {o : Lookup}
    (e : tapLookup g c p L = (o, M)) (h : grows base L.journal) : grows base M.journal := by
  have := grows_tapLookup g c p h
  rw [e] at this; exact this

@[simp] theorem grows_decideTap {base : Journal} (g : Setup) (p : Pos) (c : CardId) {L : Live}
    (h : grows base L.journal) : grows base (decideTap g p c L).2.journal := by
  unfold decideTap; split
  · exact h
  · split <;> (next e => simp [grows_tapLookup_eq e h])

@[simp] theorem grows_decideRemote {base : Journal} (g : Setup) (p : Pos) (c : CardId)
    {L : Live} (h : grows base L.journal) :
    grows base (decideRemote g p c L).2.journal := by
  unfold decideRemote; (repeat' split) <;> simp (maxDischargeDepth := 20) [h]

@[simp] theorem grows_showRefusal {base : Journal} (p : Pos) {r : Option DisplayCode × Live} (h : grows base r.2.journal) :
    grows base (showRefusal p r).journal := by
  unfold showRefusal; split <;> simp [h]

@[simp] theorem grows_tap {base : Journal} (g : Setup) (p : Pos) (c : CardId) {L : Live} (h : grows base L.journal) :
    grows base (tap g p c L).journal := by
  unfold tap; (repeat' split) <;> simp (maxDischargeDepth := 20) [h]

@[simp] theorem grows_answerQuery {base : Journal} (g : Setup) (c : CardId) {L : Live} (h : grows base L.journal) :
    grows base (answerQuery g c L).journal := by
  unfold answerQuery; dsimp only; (repeat' split) <;> simp (maxDischargeDepth := 20) [h]

@[simp] theorem grows_offerMark {base : Journal} (g : Setup) (p : Pos) (b : BikeId) (i : Issuer)
    {L : Live} (h : grows base L.journal) :
    grows base (offerMark g p b i L).journal := by
  simp (maxDischargeDepth := 20) [offerMark, h]

@[simp] theorem grows_windowButton {base : Journal} (g : Setup) (p : Pos) (s : Slot)
    {L : Live} (h : grows base L.journal) :
    grows base (windowButton g p s L).journal := by
  unfold windowButton; split <;> simp (maxDischargeDepth := 20) [h]

@[simp] theorem grows_outsideButton {base : Journal} (g : Setup) (p : Pos) {L : Live} (h : grows base L.journal) :
    grows base (outsideButton g p L).journal := by
  unfold outsideButton; dsimp only; (repeat' split) <;> simp (maxDischargeDepth := 20) [h]

@[simp] theorem grows_button {base : Journal} (g : Setup) (p : Pos) {L : Live} (h : grows base L.journal) :
    grows base (button g p L).journal := by
  unfold button; (repeat' split) <;> simp (maxDischargeDepth := 20) [h]

@[simp] theorem grows_setLatch {base : Journal} (g : Setup) (p : Pos) (l : Latch)
    {L : Live} (h : grows base L.journal) :
    grows base (setLatch g p l L).journal := by
  simp (maxDischargeDepth := 20) [setLatch, h]

@[simp] theorem grows_riderOutcome {base : Journal} (g : Setup) (p : Pos) (r : Release) (o : Outcome)
    {L : Live} (h : grows base L.journal) :
    grows base (riderOutcome g p r o L).journal := by
  unfold riderOutcome; split <;> simp (maxDischargeDepth := 20) [h]

@[simp] theorem grows_crewOutcome {base : Journal} (g : Setup) (p : Pos) (o : Outcome)
    {L : Live} (h : grows base L.journal) :
    grows base (crewOutcome g p o L).journal := by
  unfold crewOutcome; split <;> simp (maxDischargeDepth := 20) [h]

@[simp] theorem grows_unlatchOutcome {base : Journal} (g : Setup) (p : Pos) (o : Outcome)
    {L : Live} (h : grows base L.journal) :
    grows base (unlatchOutcome g p o L).journal := by
  unfold unlatchOutcome; (repeat' split) <;> simp (maxDischargeDepth := 20) [h]

@[simp] theorem grows_closeSnapshot {base : Journal} (g : Setup) (p : Pos) (b : BikeId) (start : Minute)
    (close : Option Minute) {L : Live} (h : grows base L.journal) :
    grows base (closeSnapshot g p b start close L).journal := by
  unfold closeSnapshot; (repeat' split) <;> simp (maxDischargeDepth := 20) [h]

@[simp] theorem grows_closeOutcome {base : Journal} (g : Setup) (p : Pos) (b : BikeId) (start : Minute)
    (close : Option Minute) (o : Outcome) {L : Live} (h : grows base L.journal) :
    grows base (closeOutcome g p b start close o L).journal := by
  unfold closeOutcome; (repeat' split) <;> simp (maxDischargeDepth := 20) [h]

@[simp] theorem grows_markOutcome {base : Journal} (g : Setup) (p : Pos) (b : BikeId) (m : Minute) (station : Nat)
    (o : Outcome) {L : Live} (h : grows base L.journal) :
    grows base (markOutcome g p b m station o L).journal := by
  unfold markOutcome; (repeat' split) <;> simp (maxDischargeDepth := 20) [h]

@[simp] theorem grows_lampOutcome {base : Journal} (p : Pos) (l : Lamp) (o : Outcome)
    {L : Live} (h : grows base L.journal) :
    grows base (lampOutcome p l o L).journal := by
  unfold lampOutcome; split
  · exact grows_checkLamp p (grows_noteDock p _ h)
  · exact h

@[simp] theorem grows_outcome {base : Journal} (g : Setup) (e : QueueEntry) (o : Outcome)
    {L : Live} (h : grows base L.journal) :
    grows base (outcome g e o L).journal := by
  unfold outcome; split <;> simp (maxDischargeDepth := 20) [h]

@[simp] theorem grows_departure {base : Journal} (g : Setup) (p : Pos) {L : Live} (h : grows base L.journal) :
    grows base (departure g p L).journal := by
  simp (maxDischargeDepth := 20) [departure, h]

@[simp] theorem grows_arriveEmpty {base : Journal} (g : Setup) (p : Pos) (snap : Snapshot)
    {L : Live} (h : grows base L.journal) :
    grows base (arriveEmpty g p snap L).journal := by
  simp (maxDischargeDepth := 20) [arriveEmpty, h]

@[simp] theorem grows_refreshSnapshot {base : Journal} (g : Setup) (p : Pos) (snap : Snapshot)
    {L : Live} (h : grows base L.journal) :
    grows base (refreshSnapshot g p snap L).journal := by
  unfold refreshSnapshot; (repeat' split) <;> simp (maxDischargeDepth := 20) [h]

@[simp] theorem grows_meetHeld {base : Journal} (g : Setup) (p : Pos) (snap : Snapshot)
    {L : Live} (h : grows base L.journal) :
    grows base (meetHeld g p snap L).journal := by
  unfold meetHeld; split <;> simp (maxDischargeDepth := 20) [h]

@[simp] theorem grows_bikeIn {base : Journal} (g : Setup) (p : Pos) (snap : Snapshot)
    {L : Live} (h : grows base L.journal) :
    grows base (bikeIn g p snap L).journal := by
  unfold bikeIn; split <;> simp (maxDischargeDepth := 20) [h]

@[simp] theorem grows_takenOpen {base : Journal} (g : Setup) (p : Pos) {L : Live} (h : grows base L.journal) :
    grows base (takenOpen g p L).journal := by
  unfold takenOpen; dsimp only; (repeat' split) <;> simp (maxDischargeDepth := 20) [h]

@[simp] theorem grows_relatch {base : Journal} (g : Setup) (p : Pos) (snap : Snapshot)
    {L : Live} (h : grows base L.journal) :
    grows base (relatch g p snap L).journal := by
  unfold relatch; dsimp only; (repeat' split) <;> simp (maxDischargeDepth := 20) [h]

@[simp] theorem grows_relatchedOpen {base : Journal} (g : Setup) (p : Pos) (snap : Snapshot)
    {L : Live} (h : grows base L.journal) :
    grows base (relatchedOpen g p snap L).journal := by
  unfold relatchedOpen; dsimp only; (repeat' split) <;> simp (maxDischargeDepth := 20) [h]

@[simp] theorem grows_forgetUnlatch {base : Journal} (p : Pos) {L : Live} (h : grows base L.journal) :
    grows base (forgetUnlatch p L).journal := by
  simp (maxDischargeDepth := 20) [forgetUnlatch, h]

@[simp] theorem grows_impliedAccepted {base : Journal} (g : Setup) (p : Pos) {L : Live} (h : grows base L.journal) :
    grows base (impliedAccepted g p L).journal := by
  simp (maxDischargeDepth := 20) [impliedAccepted, h]

@[simp] theorem grows_taken {base : Journal} (g : Setup) (p : Pos) {L : Live} (h : grows base L.journal) :
    grows base (taken g p L).journal := by
  unfold taken; split <;> simp (maxDischargeDepth := 20) [h]

@[simp] theorem grows_relatched {base : Journal} (g : Setup) (p : Pos) (snap : Snapshot)
    {L : Live} (h : grows base L.journal) :
    grows base (relatched g p snap L).journal := by
  unfold relatched; split <;> simp (maxDischargeDepth := 20) [h]

@[simp] theorem grows_answerPass {base : Journal} (p : Pos) (c : CardId) (a : PassReply)
    {L : Live} (h : grows base L.journal) :
    grows base (answerPass p c a L).journal := by
  simp (maxDischargeDepth := 20) [answerPass, h]

@[simp] theorem grows_createPass {base : Journal} (g : Setup) (p : Pos) (r : CardRec) (session : Nat)
    {L : Live} (h : grows base L.journal) :
    grows base (createPass g p r session L).journal := by
  unfold createPass
  exact grows_answerPass p _ _ (grows_answerQuery g _ (grows_append _ _ _ (L := { L with cards := _ }) h))

@[simp] theorem grows_passHeld {base : Journal} (g : Setup) (p : Pos) (c : CardId) (plan : PlanClass)
    (hold : Money) (validity session : Nat) {L : Live} (h : grows base L.journal) :
    grows base (passHeld g p c plan hold validity session L).journal := by
  unfold passHeld; (repeat' split) <;> simp (maxDischargeDepth := 20) [h]

@[simp] theorem grows_dockEvent {base : Journal} (g : Setup) (p : Pos) (e : NodeEvent)
    {L : Live} (h : grows base L.journal) :
    grows base (dockEvent g p e L).journal := by
  unfold dockEvent; split <;> simp (maxDischargeDepth := 20) [h]

@[simp] theorem grows_kioskEvent {base : Journal} (g : Setup) (p : Pos) (e : NodeEvent)
    {L : Live} (h : grows base L.journal) :
    grows base (kioskEvent g p e L).journal := by
  unfold kioskEvent; split <;> simp (maxDischargeDepth := 20) [h]

@[simp] theorem grows_nodeEvent {base : Journal} (g : Setup) (p : Pos) (e : NodeEvent)
    {L : Live} (h : grows base L.journal) :
    grows base (nodeEvent g p e L).journal := by
  unfold nodeEvent; split <;> simp (maxDischargeDepth := 20) [h]

@[simp] theorem grows_uncertainTaken {base : Journal} (g : Setup) (r : Release)
    {L : Live} (h : grows base L.journal) :
    grows base (uncertainTaken g r L).journal := by
  simp (maxDischargeDepth := 20) [uncertainTaken, h]

@[simp] theorem grows_uncertainKept {base : Journal} (g : Setup) (r : Release) (snap : Snapshot) (clear : Bool)
    {L : Live} (h : grows base L.journal) :
    grows base (uncertainKept g r snap clear L).journal := by
  unfold uncertainKept; split <;> simp (maxDischargeDepth := 20) [h]

@[simp] theorem grows_settleRelease {base : Journal} (g : Setup) (r : Release) (snap : Option Snapshot)
    {L : Live} (h : grows base L.journal) :
    grows base (settleRelease g r snap L).journal := by
  unfold settleRelease; (repeat' split) <;> simp (maxDischargeDepth := 20) [h]

@[simp] theorem grows_crewUncertainTaken {base : Journal} (g : Setup) (c : CrewAction)
    {L : Live} (h : grows base L.journal) :
    grows base (crewUncertainTaken g c L).journal := by
  simp (maxDischargeDepth := 20) [crewUncertainTaken, h]

@[simp] theorem grows_crewUncertainKept {base : Journal} (g : Setup) (c : CrewAction) (snap : Snapshot)
    {L : Live} (h : grows base L.journal) :
    grows base (crewUncertainKept g c snap L).journal := by
  simp (maxDischargeDepth := 20) [crewUncertainKept, h]

@[simp] theorem grows_settleCrew {base : Journal} (g : Setup) (c : CrewAction) (snap : Option Snapshot)
    {L : Live} (h : grows base L.journal) :
    grows base (settleCrew g c snap L).journal := by
  unfold settleCrew; (repeat' split) <;> simp (maxDischargeDepth := 20) [h]

@[simp] theorem grows_latchFrom {base : Journal} (g : Setup) (p : Pos) (snap : Option Snapshot)
    {L : Live} (h : grows base L.journal) :
    grows base (latchFrom g p snap L).journal := by
  simp (maxDischargeDepth := 20) [latchFrom, h]

@[simp] theorem grows_settleUncertain {base : Journal} (g : Setup) (p : Pos) (snap : Option Snapshot)
    {L : Live} (h : grows base L.journal) :
    grows base (settleUncertain g p snap L).journal := by
  unfold settleUncertain; (repeat' split) <;> simp (maxDischargeDepth := 20) [h]

@[simp] theorem grows_storeIdentity {base : Journal} (g : Setup) (p : Pos) (k : NodeKind) (a : IdentifyAnswer)
    {L : Live} (h : grows base L.journal) :
    grows base (storeIdentity g p k a L).journal := by
  simp (maxDischargeDepth := 20) [storeIdentity, h]

@[simp] theorem grows_noteIdentity {base : Journal} (g : Setup) (p : Pos) (k : NodeKind) (a : IdentifyAnswer)
    {L : Live} (h : grows base L.journal) :
    grows base (noteIdentity g p k a L).journal := by
  simp (maxDischargeDepth := 20) [noteIdentity, h]

@[simp] theorem grows_firstIdentification {base : Journal} (g : Setup) (p : Pos) (snap : Option Snapshot)
    {L : Live} (h : grows base L.journal) :
    grows base (firstIdentification g p snap L).journal := by
  simp (maxDischargeDepth := 20) [firstIdentification, h]

@[simp] theorem grows_compareSnapshots {base : Journal} (g : Setup) (p : Pos) (snap : Option Snapshot)
    {L : Live} (h : grows base L.journal) :
    grows base (compareSnapshots g p snap L).journal := by
  unfold compareSnapshots; split <;> simp (maxDischargeDepth := 20) [h]

@[simp] theorem grows_recoverUnlatch {base : Journal} (g : Setup) (p : Pos) (act : Activity) (snap : Option Snapshot)
    {L : Live} (h : grows base L.journal) :
    grows base (recoverUnlatch g p act snap L).journal := by
  unfold recoverUnlatch; split <;> simp (maxDischargeDepth := 20) [h]

@[simp] theorem grows_dropContents {base : Journal} (g : Setup) (p : Pos) {L : Live} (h : grows base L.journal) :
    grows base (dropContents g p L).journal := by
  unfold dropContents; split <;> simp (maxDischargeDepth := 20) [h]

@[simp] theorem grows_identifyDock {base : Journal} (g : Setup) (p : Pos) (a : IdentifyAnswer) (act : Activity)
    (snap : Option Snapshot) {L : Live} (h : grows base L.journal) :
    grows base (identifyDock g p a act snap L).journal := by
  unfold identifyDock; dsimp only; (repeat' split) <;> simp (maxDischargeDepth := 20) [h]

@[simp] theorem grows_identifyKiosk {base : Journal} (g : Setup) (p : Pos) (a : IdentifyAnswer)
    {L : Live} (h : grows base L.journal) :
    grows base (identifyKiosk g p a L).journal := by
  unfold identifyKiosk; split <;> simp (maxDischargeDepth := 20) [h]

theorem grows_withKiosks {base : Journal} (g : Setup) (f : Live → Live) (L : Live) (h : grows base (f L).journal) :
    grows base (withKiosks g f L).journal := by
  unfold withKiosks
  exact grows_refreshCodes _ (grows_foldl _ (fun M x hM => grows_openAt g _ x hM) _ h)

@[simp] theorem grows_identified {base : Journal} (g : Setup) (p : Pos) (a : IdentifyAnswer)
    {L : Live} (h : grows base L.journal) :
    grows base (identified g p a L).journal := by
  unfold identified; dsimp only
  refine grows_checkLamp p (grows_withKiosks g _ _ ?_)
  split <;> simp (maxDischargeDepth := 9) [h]

@[simp] theorem grows_endCommands {base : Journal} (g : Setup) (p : Pos) {L : Live} (h : grows base L.journal) :
    grows base (endCommands g p L).journal := by
  unfold endCommands; dsimp only
  split
  · exact grows_outcome g _ _ (grows_foldl _ (fun M e hM => grows_outcome g e _ hM) _ (grows_updArm _ _ h))
  · exact grows_foldl _ (fun M e hM => grows_outcome g e _ hM) _ (grows_updArm _ _ h)

@[simp] theorem grows_loseLatch {base : Journal} (g : Setup) (p : Pos) {L : Live} (h : grows base L.journal) :
    grows base (loseLatch g p L).journal := by
  unfold loseLatch; split <;> simp (maxDischargeDepth := 20) [h]

@[simp] theorem grows_setLinkState {base : Journal} (g : Setup) (p : Pos) (st : LinkState) (rec : Recovery)
    {L : Live} (h : grows base L.journal) :
    grows base (setLinkState g p st rec L).journal := by
  simp (maxDischargeDepth := 20) [setLinkState, h]

@[simp] theorem grows_becomeLost {base : Journal} (g : Setup) (p : Pos) {L : Live} (h : grows base L.journal) :
    grows base (becomeLost g p L).journal := by
  simp (maxDischargeDepth := 20) [becomeLost, h]

@[simp] theorem grows_becomeDark {base : Journal} (g : Setup) (p : Pos) {L : Live} (h : grows base L.journal) :
    grows base (becomeDark g p L).journal := by
  simp (maxDischargeDepth := 20) [becomeDark, h]

@[simp] theorem grows_becomeAbsent {base : Journal} (g : Setup) (p : Pos) {L : Live} (h : grows base L.journal) :
    grows base (becomeAbsent g p L).journal := by
  unfold becomeAbsent
  exact grows_withKiosks g _ _ (grows_dropContents g p (grows_endCommands g p (grows_setLinkState g p _ _ h)))

@[simp] theorem grows_darkOrAbsent {base : Journal} (g : Setup) (p : Pos) {L : Live} (h : grows base L.journal) :
    grows base (darkOrAbsent g p L).journal := by
  unfold darkOrAbsent; split <;> simp (maxDischargeDepth := 20) [h]

@[simp] theorem grows_setWork {base : Journal} (a : Arm) (w : Work) {L : Live} (h : grows base L.journal) :
    grows base (setWork a w L).journal := by
  simp (maxDischargeDepth := 20) [setWork, h]

@[simp] theorem grows_changeArm {base : Journal} (g : Setup) (a : Arm) (st : ArmState)
    {L : Live} (h : grows base L.journal) :
    grows base (changeArm g a st L).journal := by
  unfold changeArm; dsimp only; (repeat' split) <;> simp (maxDischargeDepth := 20) [h]

@[simp] theorem grows_enterService {base : Journal} (g : Setup) (a : Arm) {L : Live} (h : grows base L.journal) :
    grows base (enterService g a L).journal := by
  simp (maxDischargeDepth := 20) [enterService, h]

@[simp] theorem grows_leaveService {base : Journal} (g : Setup) (a : Arm) {L : Live} (h : grows base L.journal) :
    grows base (leaveService g a L).journal := by
  simp (maxDischargeDepth := 20) [leaveService, h]

@[simp] theorem grows_applyHolding {base : Journal} (g : Setup) (a : Arm) {L : Live} (h : grows base L.journal) :
    grows base (applyHolding g a L).journal := by
  unfold applyHolding; (repeat' split) <;> simp (maxDischargeDepth := 20) [h]

@[simp] theorem grows_putBack {base : Journal} (p : Pos) (code : Option (DisplayCode × CodeSort))
    (replaced : Option DisplayCode) {L : Live} (h : grows base L.journal) :
    grows base (putBack p code replaced L).journal := by
  simp (maxDischargeDepth := 20) [putBack, h]

@[simp] theorem grows_darkFrom {base : Journal} (g : Setup) (a : Arm) (k : Nat)
    {L : Live} (h : grows base L.journal) :
    grows base (darkFrom g a k L).journal := by
  unfold darkFrom; exact grows_foldl _ (fun M x hM => by simp [hM]) _ h

@[simp] theorem grows_absentFrom {base : Journal} (g : Setup) (a : Arm) (k : Nat)
    {L : Live} (h : grows base L.journal) :
    grows base (absentFrom g a k L).journal := by
  unfold absentFrom; exact grows_foldl _ (fun M x hM => by simp [hM]) _ h

@[simp] theorem grows_resetSwitches {base : Journal} (a : Arm) {L : Live} (h : grows base L.journal) :
    grows base (resetSwitches a L).journal := by
  unfold resetSwitches; exact grows_foldl _ (fun M x hM => by simp [hM]) _ h

@[simp] theorem grows_cutTxn {base : Journal} (g : Setup) (a : Arm) (t : Option Txn)
    {L : Live} (h : grows base L.journal) :
    grows base (cutTxn g a t L).journal := by
  unfold cutTxn; split <;> simp (maxDischargeDepth := 20) [h]

@[simp] theorem grows_rootChanges {base : Journal} (g : Setup) (a : Arm) {L : Live} (h : grows base L.journal) :
    grows base (rootChanges g a L).journal := by
  unfold rootChanges; dsimp only
  refine grows_resetSwitches a (grows_darkFrom g a 1 ?_)
  have h' : ∀ M : Live, grows base M.journal →
      grows base ((L.arm a).queue.foldl (fun M e => outcome g e .notSent M) M).journal :=
    fun M hM => grows_foldl _ (fun M e hM => grows_outcome g e _ hM) _ hM
  split
  · exact grows_outcome g _ _ (h' _ (grows_cutTxn g a _ (grows_updArm a _ h)))
  · exact h' _ (grows_cutTxn g a _ (grows_updArm a _ h))

@[simp] theorem grows_rootOpening {base : Journal} (g : Setup) (a : Arm) (second : Bool)
    {L : Live} (h : grows base L.journal) :
    grows base (rootOpening g a second L).journal := by
  unfold rootOpening
  exact grows_rootChanges g a (grows_updArm a _ (grows_changeArm g a _ h))

@[simp] theorem grows_armStop {base : Journal} (g : Setup) (a : Arm) {L : Live} (h : grows base L.journal) :
    grows base (armStop g a L).journal := by
  have h' := grows_updArm a (fun r => { r with discovery := none, work := .none, repower := [], secondFault := false })
    (grows_changeArm g a .stopping h)
  unfold armStop; dsimp only; split
  · exact grows_refreshNodes _ (grows_updArm a _ h')
  · exact grows_rootChanges g a h'

@[simp] theorem grows_afterTxn {base : Journal} (g : Setup) (a : Arm) {L : Live} (h : grows base L.journal) :
    grows base (afterTxn g a L).journal := by
  unfold afterTxn; split <;> simp (maxDischargeDepth := 20) [h]

@[simp] theorem grows_shortfallTest {base : Journal} (g : Setup) (a : Arm) {L : Live} (h : grows base L.journal) :
    grows base (shortfallTest g a L).journal := by
  unfold shortfallTest; split <;> simp (maxDischargeDepth := 20) [h]

@[simp] theorem grows_holdAtEnd {base : Journal} (g : Setup) (a : Arm) {L : Live} (h : grows base L.journal) :
    grows base (holdAtEnd g a L).journal := by
  unfold holdAtEnd; (repeat' split) <;> simp (maxDischargeDepth := 20) [h]

@[simp] theorem grows_endDiscovery {base : Journal} (g : Setup) (a : Arm) {L : Live} (h : grows base L.journal) :
    grows base (endDiscovery g a L).journal :=
  grows_shortfallTest g a (grows_holdAtEnd g a (grows_updArm a _ h))

@[simp] theorem grows_endLocalization {base : Journal} (g : Setup) (a : Arm) {L : Live} (h : grows base L.journal) :
    grows base (endLocalization g a L).journal := by
  unfold endLocalization; split <;> simp (maxDischargeDepth := 20) [h]

@[simp] theorem grows_endIsolation {base : Journal} (g : Setup) (a : Arm) (localization : Bool)
    {L : Live} (h : grows base L.journal) :
    grows base (endIsolation g a localization L).journal := by
  unfold endIsolation; split <;> simp (maxDischargeDepth := 20) [h]

@[simp] theorem grows_beginIsolation {base : Journal} (g : Setup) (a : Arm) (t : Nat) (localization : Bool)
    {L : Live} (h : grows base L.journal) :
    grows base (beginIsolation g a t localization L).journal := by
  unfold beginIsolation; split <;> simp (maxDischargeDepth := 20) [h]

@[simp] theorem grows_beginLocalization {base : Journal} (g : Setup) (a : Arm) (j : Nat)
    {L : Live} (h : grows base L.journal) :
    grows base (beginLocalization g a j L).journal := by
  have h' := grows_setWork a (if j = 0 then .locateRoot else .locate j) h
  unfold beginLocalization; dsimp only
  generalize setWork a (if j = 0 then .locateRoot else .locate j) L = M at h' ⊢
  (repeat' split) <;> simp [h']

@[simp] theorem grows_startProbe {base : Journal} (g : Setup) (a : Arm) (k : Nat)
    {L : Live} (h : grows base L.journal) :
    grows base (startProbe g a k L).journal := by
  simp (maxDischargeDepth := 20) [startProbe, h]

@[simp] theorem grows_localizationTest {base : Journal} (g : Setup) (a : Arm) (k : Nat)
    {L : Live} (h : grows base L.journal) :
    grows base (localizationTest g a k L).journal := by
  unfold localizationTest; dsimp only; (repeat' split) <;> simp (maxDischargeDepth := 20) [h]

@[simp] theorem grows_locateHighest {base : Journal} (a : Arm) {L : Live} (h : grows base L.journal) :
    grows base (locateHighest a L).journal := by
  simp (maxDischargeDepth := 20) [locateHighest, h]

@[simp] theorem grows_afterLoss {base : Journal} (g : Setup) (a : Arm) (k : Nat)
    {L : Live} (h : grows base L.journal) :
    grows base (afterLoss g a k L).journal := by
  unfold afterLoss; (repeat' split) <;> simp (maxDischargeDepth := 20) [h]

@[simp] theorem grows_countMiss {base : Journal} (g : Setup) (a : Arm) (k : Nat)
    {L : Live} (h : grows base L.journal) :
    grows base (countMiss g a k L).journal := by
  have h' := grows_updLink (posAt a k) (fun l => { l with misses := (L.link (posAt a k)).misses + 1 }) h
  unfold countMiss; dsimp only
  split
  · split
    · split
      · exact grows_updDock g _ _ h'
      · exact h'
    · exact grows_afterLoss g a k (grows_becomeLost g _ h')
  · exact h

@[simp] theorem grows_answered {base : Journal} (g : Setup) (p : Pos) {L : Live} (h : grows base L.journal) :
    grows base (answered g p L).journal := by
  unfold answered; dsimp only; (repeat' split) <;> simp (maxDischargeDepth := 20) [h]

theorem grows_walkFrom {base : Journal} (g : Setup) (a : Arm) (n k : Nat) {L : Live} (h : grows base L.journal) :
    grows base (walkFrom g a n k L).journal := by
  induction n generalizing k with
  | zero => simp [walkFrom, h]
  | succ n ih => unfold walkFrom; (repeat' split) <;> simp [h, ih]

@[simp] theorem grows_walk {base : Journal} (g : Setup) (a : Arm) (k : Nat) {L : Live} (h : grows base L.journal) :
    grows base (walk g a k L).journal :=
  grows_walkFrom g a _ k h

@[simp] theorem grows_clearMark {base : Journal} (a : Arm) {L : Live} (h : grows base L.journal) :
    grows base (clearMark a L).journal := by
  simp (maxDischargeDepth := 20) [clearMark, h]

@[simp] theorem grows_startFull {base : Journal} (g : Setup) (a : Arm) {L : Live} (h : grows base L.journal) :
    grows base (startFull g a L).journal := by
  unfold startFull; dsimp only
  refine grows_updArm a _ (grows_foldl _ (fun M x hM => ?_) _ (grows_changeArm g a _ (grows_clearMark a h)))
  split
  · exact hM
  · exact grows_becomeAbsent g x hM

@[simp] theorem grows_startExtension {base : Journal} (g : Setup) (a : Arm) {L : Live} (h : grows base L.journal) :
    grows base (startExtension g a L).journal := by
  unfold startExtension
  exact grows_walk g a 1 (grows_updArm a _ (grows_clearMark a h))

@[simp] theorem grows_beginDiagnosis {base : Journal} (g : Setup) (a : Arm) (k : Nat)
    {L : Live} (h : grows base L.journal) :
    grows base (beginDiagnosis g a k L).journal := by
  unfold beginDiagnosis; (repeat' split) <;> simp (maxDischargeDepth := 20) [h]

@[simp] theorem grows_judge {base : Journal} (g : Setup) (a : Arm) (k : Nat) {L : Live} (h : grows base L.journal) :
    grows base (judge g a k L).journal := by
  unfold judge; dsimp only; (repeat' split) <;> simp (maxDischargeDepth := 20) [h]

@[simp] theorem grows_diagnose {base : Journal} (g : Setup) (a : Arm) (k : Nat) (switch : Switch) (sense : Sense)
    {L : Live} (h : grows base L.journal) :
    grows base (diagnose g a k switch sense L).journal := by
  unfold diagnose; split <;> simp (maxDischargeDepth := 20) [h]

@[simp] theorem grows_diagnoseRoot {base : Journal} (g : Setup) (a : Arm) (sense : Sense)
    {L : Live} (h : grows base L.journal) :
    grows base (diagnoseRoot g a sense L).journal := by
  unfold diagnoseRoot; split <;> simp (maxDischargeDepth := 20) [h]

@[simp] theorem grows_locate {base : Journal} (g : Setup) (a : Arm) (j : Nat) (switch : Switch) (sense : Sense)
    {L : Live} (h : grows base L.journal) :
    grows base (locate g a j switch sense L).journal := by
  unfold locate; split <;> simp (maxDischargeDepth := 20) [h]

@[simp] theorem grows_locateRoot {base : Journal} (g : Setup) (a : Arm) (sense : Sense)
    {L : Live} (h : grows base L.journal) :
    grows base (locateRoot g a sense L).journal := by
  unfold locateRoot; split <;> simp (maxDischargeDepth := 20) [h]

@[simp] theorem grows_moveTarget {base : Journal} (g : Setup) (a : Arm) (t : Nat) (localization : Bool)
    {L : Live} (h : grows base L.journal) :
    grows base (moveTarget g a t localization L).journal := by
  simp (maxDischargeDepth := 20) [moveTarget, h]

@[simp] theorem grows_sendPoll {base : Journal} (a : Arm) (k : Nat) {L : Live} (h : grows base L.journal) :
    grows base (sendPoll a k L).journal := by
  simp (maxDischargeDepth := 20) [sendPoll, h]

@[simp] theorem grows_sendCommand {base : Journal} (a : Arm) (e : QueueEntry) {L : Live} (h : grows base L.journal) :
    grows base (sendCommand a e L).journal := by
  simp (maxDischargeDepth := 20) [sendCommand, h]

@[simp] theorem grows_sendRecovery {base : Journal} (a : Arm) (k : Nat) {L : Live} (h : grows base L.journal) :
    grows base (sendRecovery a k L).journal := by
  simp (maxDischargeDepth := 20) [sendRecovery, h]

@[simp] theorem grows_handOut {base : Journal} (a : Arm) {L : Live} (h : grows base L.journal) :
    grows base (handOut a L).journal := by
  unfold handOut; (repeat' split) <;> simp (maxDischargeDepth := 20) [h]

@[simp] theorem grows_pump {base : Journal} {L : Live} (h : grows base L.journal) :
    grows base (pump L).journal := by
  unfold pump; exact grows_foldl _ (fun M x hM => by simp [hM]) _ h

@[simp] theorem grows_clearTxn {base : Journal} (a : Arm) {L : Live} (h : grows base L.journal) :
    grows base (clearTxn a L).journal := by
  simp (maxDischargeDepth := 20) [clearTxn, h]

@[simp] theorem grows_delivered {base : Journal} (p : Pos) (replaced : Option DisplayCode)
    {L : Live} (h : grows base L.journal) :
    grows base (delivered p replaced L).journal := by
  unfold delivered; (repeat' split) <;> simp (maxDischargeDepth := 20) [h]

@[simp] theorem grows_takeEvents {base : Journal} (g : Setup) (p : Pos) (ans : PollAnswer)
    {L : Live} (h : grows base L.journal) :
    grows base (takeEvents g p ans L).journal := by
  have h' := grows_foldl (fun M e => nodeEvent g p e M) (fun M e hM => grows_nodeEvent g p e hM) ans.events h
  unfold takeEvents; dsimp only; split
  · exact grows_openAt g _ p h'
  · exact h'

@[simp] theorem grows_takeAnswer {base : Journal} (g : Setup) (p : Pos) (ans : PollAnswer)
    {L : Live} (h : grows base L.journal) :
    grows base (takeAnswer g p ans L).journal := by
  unfold takeAnswer; split
  · exact h
  · exact grows_takeEvents g p ans (grows_updLink p _ h)

@[simp] theorem grows_pollAnswered {base : Journal} (g : Setup) (a : Arm) (ans : PollAnswer)
    {L : Live} (h : grows base L.journal) :
    grows base (pollAnswered g a ans L).journal := by
  unfold pollAnswered; split
  · exact grows_pump (grows_afterTxn g a (grows_checkLamp _ (grows_retryCloses _ (grows_takeAnswer g _ ans
      (grows_delivered _ _ (grows_answered g _ (grows_clearTxn a h)))))))
  · exact h

@[simp] theorem grows_commandAnswered {base : Journal} (g : Setup) (a : Arm) (ans : CommandAnswer)
    {L : Live} (h : grows base L.journal) :
    grows base (commandAnswered g a ans L).journal := by
  unfold commandAnswered; (repeat' split) <;> simp (maxDischargeDepth := 20) [h]

@[simp] theorem grows_recovered {base : Journal} (g : Setup) (a : Arm) (k : Nat) (ans : IdentifyAnswer)
    {L : Live} (h : grows base L.journal) :
    grows base (recovered g a k ans L).journal := by
  unfold recovered; dsimp only; (repeat' split) <;> simp (maxDischargeDepth := 20) [h]

@[simp] theorem grows_locateAnswered {base : Journal} (g : Setup) (a : Arm) (k : Nat) (ans : IdentifyAnswer)
    {L : Live} (h : grows base L.journal) :
    grows base (locateAnswered g a k ans L).journal := by
  unfold locateAnswered; dsimp only; (repeat' split) <;> simp (maxDischargeDepth := 20) [h]

@[simp] theorem grows_probeAnswered {base : Journal} (g : Setup) (a : Arm) (ans : IdentifyAnswer)
    {L : Live} (h : grows base L.journal) :
    grows base (probeAnswered g a ans L).journal := by
  unfold probeAnswered; dsimp only; (repeat' split) <;> simp (maxDischargeDepth := 20) [h]

@[simp] theorem grows_passProbed {base : Journal} (g : Setup) (a : Arm) {L : Live} (h : grows base L.journal) :
    grows base (passProbed g a L).journal := by
  unfold passProbed; (repeat' split) <;> simp (maxDischargeDepth := 20) [h]

@[simp] theorem grows_recoveryAnswered {base : Journal} (g : Setup) (a : Arm) (ans : IdentifyAnswer)
    {L : Live} (h : grows base L.journal) :
    grows base (recoveryAnswered g a ans L).journal := by
  unfold recoveryAnswered; split <;> simp (maxDischargeDepth := 20) [h]

@[simp] theorem grows_setSwitch {base : Journal} (p : Pos) (s : Switch) {L : Live} (h : grows base L.journal) :
    grows base (setSwitch p s L).journal := by
  simp (maxDischargeDepth := 20) [setSwitch, h]

@[simp] theorem grows_passClosed {base : Journal} (a : Arm) (k : Nat) {L : Live} (h : grows base L.journal) :
    grows base (passClosed a k L).journal := by
  unfold passClosed; dsimp only; (repeat' split) <;> simp (maxDischargeDepth := 20) [h]

@[simp] theorem grows_workBeyond {base : Journal} (g : Setup) (a : Arm) (k : Nat) {L : Live} (h : grows base L.journal) :
    grows base (workBeyond g a k L).journal := by
  unfold workBeyond; (repeat' split) <;> simp (maxDischargeDepth := 20) [h]

@[simp] theorem grows_passTripped {base : Journal} (g : Setup) (a : Arm) (k : Nat)
    {L : Live} (h : grows base L.journal) :
    grows base (passTripped g a k L).journal := by
  unfold passTripped; dsimp only; (repeat' split) <;> simp (maxDischargeDepth := 20) [h]

@[simp] theorem grows_passPowerAnswered {base : Journal} (g : Setup) (a : Arm) (ans : PassPowerResult)
    {L : Live} (h : grows base L.journal) :
    grows base (passPowerAnswered g a ans L).journal := by
  unfold passPowerAnswered; split
  · next k _ =>
    dsimp only
    have h' := grows_updArm a (fun r => { r with repower := r.repower.filter fun i => i ≠ k })
      (grows_answered g (posAt a k) (grows_clearTxn a h))
    generalize updArm a (fun r => { r with repower := r.repower.filter fun i => i ≠ k }) _ = M at h' ⊢
    refine grows_pump (grows_afterTxn g a ?_)
    (repeat' split) <;> simp [h']
  · exact h

@[simp] theorem grows_reportAnswered {base : Journal} (g : Setup) (a : Arm) (switch : Switch) (sense : Sense)
    {L : Live} (h : grows base L.journal) :
    grows base (reportAnswered g a switch sense L).journal := by
  unfold reportAnswered; dsimp only; (repeat' split) <;> simp (maxDischargeDepth := 20) [h]

@[simp] theorem grows_switchOpened {base : Journal} (g : Setup) (a : Arm) (t : Nat)
    {L : Live} (h : grows base L.journal) :
    grows base (switchOpened g a t L).journal := by
  unfold switchOpened; (repeat' split) <;> simp (maxDischargeDepth := 20) [h]

@[simp] theorem grows_switchStuck {base : Journal} (g : Setup) (a : Arm) (t : Nat)
    {L : Live} (h : grows base L.journal) :
    grows base (switchStuck g a t L).journal := by
  unfold switchStuck; (repeat' split) <;> simp (maxDischargeDepth := 20) [h]

@[simp] theorem grows_openSwitchAnswered {base : Journal} (g : Setup) (a : Arm) (ans : OpenSwitchResult)
    {L : Live} (h : grows base L.journal) :
    grows base (openSwitchAnswered g a ans L).journal := by
  unfold openSwitchAnswered; (repeat' split) <;> simp (maxDischargeDepth := 20) [h]

@[simp] theorem grows_openSwitchMissed {base : Journal} (g : Setup) (a : Arm) (t : Nat)
    {L : Live} (h : grows base L.journal) :
    grows base (openSwitchMissed g a t L).journal := by
  unfold openSwitchMissed; dsimp only; (repeat' split) <;> simp (maxDischargeDepth := 20) [h]

@[simp] theorem grows_answerTimeout {base : Journal} (g : Setup) (a : Arm) {L : Live} (h : grows base L.journal) :
    grows base (answerTimeout g a L).journal := by
  have h' := grows_clearTxn a h
  unfold answerTimeout; dsimp only; split
  · exact grows_pump (grows_afterTxn g a (grows_countMiss g a _ h'))
  · exact grows_pump (grows_afterTxn g a (grows_countMiss g a _ h'))
  · exact grows_pump (grows_afterTxn g a (grows_openSwitchMissed g a _ h'))
  · exact grows_pump (grows_afterTxn g a (grows_countMiss g a _ (grows_updArm a _ h)))
  · exact grows_pump (grows_afterTxn g a (grows_countMiss g a _ (grows_putBack _ _ _ h')))
  · exact h

@[simp] theorem grows_probeMissed {base : Journal} (g : Setup) (a : Arm) (k : Nat)
    {L : Live} (h : grows base L.journal) :
    grows base (probeMissed g a k L).journal := by
  unfold probeMissed; (repeat' split) <;> simp (maxDischargeDepth := 20) [h]

@[simp] theorem grows_locateMissed {base : Journal} (g : Setup) (a : Arm) {L : Live} (h : grows base L.journal) :
    grows base (locateMissed g a L).journal := by
  unfold locateMissed; (repeat' split) <;> simp (maxDischargeDepth := 20) [h]

@[simp] theorem grows_recoveryMissed {base : Journal} (a : Arm) (k : Nat) {L : Live} (h : grows base L.journal) :
    grows base (recoveryMissed a k L).journal := by
  unfold recoveryMissed; split <;> simp (maxDischargeDepth := 20) [h]

@[simp] theorem grows_identifyTimeout {base : Journal} (g : Setup) (a : Arm) {L : Live} (h : grows base L.journal) :
    grows base (identifyTimeout g a L).journal := by
  unfold identifyTimeout; split <;> simp (maxDischargeDepth := 20) [h]

@[simp] theorem grows_recoveryTimer {base : Journal} (p : Pos) {L : Live} (h : grows base L.journal) :
    grows base (recoveryTimer p L).journal := by
  unfold recoveryTimer; split <;> simp (maxDischargeDepth := 20) [h]

@[simp] theorem grows_slotExpiry {base : Journal} (g : Setup) (a : Arm) {L : Live} (h : grows base L.journal) :
    grows base (slotExpiry g a L).journal := by
  unfold slotExpiry; split <;> simp (maxDischargeDepth := 20) [h]

@[simp] theorem grows_markShed {base : Journal} (a : Arm) {L : Live} (h : grows base L.journal) :
    grows base (markShed a L).journal := by
  simp (maxDischargeDepth := 20) [markShed, h]

@[simp] theorem grows_markBegun {base : Journal} (a : Arm) {L : Live} (h : grows base L.journal) :
    grows base (markBegun a L).journal := by
  simp (maxDischargeDepth := 20) [markBegun, h]

@[simp] theorem grows_setSequence {base : Journal} (s : List (StepAction × Arm)) (waiting : Bool)
    {L : Live} (h : grows base L.journal) :
    grows base (setSequence s waiting L).journal := by
  simp (maxDischargeDepth := 20) [setSequence, h]

@[simp] theorem grows_takeStep {base : Journal} (g : Setup) (s : List (StepAction × Arm)) {L : Live}
    (h : grows base L.journal) : grows base (takeStep g s L).journal := by
  induction s generalizing L with
  | nil => simp [takeStep, h]
  | cons x s ih =>
    obtain ⟨act, a⟩ := x
    cases act with
    | stop =>
      unfold takeStep; split
      · exact grows_setSequence _ _ (grows_markShed a (grows_armStop g a h))
      · exact ih h
    | start =>
      unfold takeStep; split
      · exact grows_setSequence _ _ (grows_markBegun a (grows_startFull g a h))
      · exact grows_setSequence _ _ h
      · exact ih h

@[simp] theorem grows_beginSequence {base : Journal} (g : Setup) (s : List (StepAction × Arm)) {L : Live}
    (h : grows base L.journal) : grows base (beginSequence g s L).journal :=
  grows_takeStep g s h

@[simp] theorem grows_recomputeShed {base : Journal} (g : Setup) {L : Live} (h : grows base L.journal) :
    grows base (recomputeShed g L).journal := by
  simp (maxDischargeDepth := 20) [recomputeShed, h]

@[simp] theorem grows_sequenceStep {base : Journal} (g : Setup) {L : Live} (h : grows base L.journal) :
    grows base (sequenceStep g L).journal := by
  unfold sequenceStep; split <;> simp (maxDischargeDepth := 20) [h]

@[simp] theorem grows_resumeStart {base : Journal} (g : Setup) (a : Arm) {L : Live} (h : grows base L.journal) :
    grows base (resumeStart g a L).journal := by
  unfold resumeStart; (repeat' split) <;> simp (maxDischargeDepth := 20) [h]

@[simp] theorem grows_stoppingSense {base : Journal} (g : Setup) (a : Arm) (sense : Sense)
    {L : Live} (h : grows base L.journal) :
    grows base (stoppingSense g a sense L).journal := by
  have h' : ∀ st, grows base (updArm a (fun r => { r with secondFault := false }) (changeArm g a st L)).journal :=
    fun st => grows_updArm a _ (grows_changeArm g a st h)
  unfold stoppingSense; split <;> dsimp only
  · refine grows_resumeStart g a ?_
    split
    · exact grows_openFault g _ _ _ (h' _)
    · exact h' _
  · exact grows_resumeStart g a (grows_openFault g _ _ _ (h' _))
  · exact grows_resumeStart g a (grows_openFault g _ _ _ (h' _))

@[simp] theorem grows_rootSense {base : Journal} (g : Setup) (a : Arm) (sense : Sense)
    {L : Live} (h : grows base L.journal) :
    grows base (rootSense g a sense L).journal := by
  unfold rootSense; (repeat' split) <;> simp (maxDischargeDepth := 20) [h]

@[simp] theorem grows_setPower {base : Journal} (st : PowerState) {L : Live} (h : grows base L.journal) :
    grows base (setPower st L).journal := by
  unfold setPower
  exact grows_refreshNodes _ (grows_raise _ (L := { L with power := _ }) h)

@[simp] theorem grows_stopAll {base : Journal} (g : Setup) {L : Live} (h : grows base L.journal) :
    grows base (stopAll g L).journal := by
  unfold stopAll; exact grows_foldl _ (fun M x hM => by split <;> simp [hM]) _ h

@[simp] theorem grows_enterOff {base : Journal} (g : Setup) {L : Live} (h : grows base L.journal) :
    grows base (enterOff g L).journal := by
  unfold enterOff; dsimp only; (repeat' split) <;> simp (maxDischargeDepth := 20) [h]

@[simp] theorem grows_inHoldover {base : Journal} {L : Live} (h : grows base L.journal) :
    grows base (inHoldover L).journal := by
  simp (maxDischargeDepth := 20) [inHoldover, h]

@[simp] theorem grows_withdrawAtHoldover {base : Journal} (g : Setup) {L : Live} (h : grows base L.journal) :
    grows base (withdrawAtHoldover g L).journal := by
  simp (maxDischargeDepth := 20) [withdrawAtHoldover, h]

@[simp] theorem grows_enterHoldover {base : Journal} (g : Setup) {L : Live} (h : grows base L.journal) :
    grows base (enterHoldover g L).journal := by
  unfold enterHoldover; split <;> simp (maxDischargeDepth := 20) [h]

@[simp] theorem grows_leaveHoldover {base : Journal} (g : Setup) {L : Live} (h : grows base L.journal) :
    grows base (leaveHoldover g L).journal := by
  simp (maxDischargeDepth := 20) [leaveHoldover, h]

@[simp] theorem grows_mainsFalse {base : Journal} (g : Setup) {L : Live} (h : grows base L.journal) :
    grows base (mainsFalse g L).journal := by
  unfold mainsFalse; dsimp only; (repeat' split) <;> simp (maxDischargeDepth := 20) [h]

@[simp] theorem grows_battTrue {base : Journal} (g : Setup) {L : Live} (h : grows base L.journal) :
    grows base (battTrue g L).journal := by
  unfold battTrue; dsimp only; (repeat' split) <;> simp (maxDischargeDepth := 20) [h]

@[simp] theorem grows_battFalse {base : Journal} {L : Live} (h : grows base L.journal) :
    grows base (battFalse L).journal := by
  simp (maxDischargeDepth := 20) [battFalse, h]

@[simp] theorem grows_serviceLine {base : Journal} (g : Setup) (level : Bool) {L : Live} (h : grows base L.journal) :
    grows base (serviceLine g level L).journal := by
  unfold serviceLine
  refine grows_pump (grows_foldl _ (fun M a hM => grows_applyHolding g a hM) _ ?_)
  exact h

@[simp] theorem grows_quietTo {base : Journal} (g : Setup) (on : Bool) {L : Live} (h : grows base L.journal) :
    grows base (quietTo g on L).journal := by
  unfold quietTo; split <;> simp (maxDischargeDepth := 20) [h]

@[simp] theorem grows_tickTimers {base : Journal} {L : Live} (h : grows base L.journal) :
    grows base (tickTimers L).journal := by
  unfold tickTimers; dsimp only; (repeat' split) <;> simp (maxDischargeDepth := 20) [h]

@[simp] theorem grows_clockTick {base : Journal} {L : Live} (h : grows base L.journal) :
    grows base (clockTick L).journal := by
  unfold clockTick; dsimp only; (repeat' split) <;> simp (maxDischargeDepth := 20) [h]

@[simp] theorem grows_queryTimeout {base : Journal} (c : CardId) {L : Live} (h : grows base L.journal) :
    grows base (queryTimeout c L).journal := by
  unfold queryTimeout; split <;> simp (maxDischargeDepth := 20) [h]

@[simp] theorem grows_windowExpiry {base : Journal} (g : Setup) (p : Pos) {L : Live} (h : grows base L.journal) :
    grows base (windowExpiry g p L).journal := by
  unfold windowExpiry; split <;> simp (maxDischargeDepth := 20) [h]

@[simp] theorem grows_vanExpiry {base : Journal} (g : Setup) {L : Live} (h : grows base L.journal) :
    grows base (vanExpiry g L).journal := by
  unfold vanExpiry; split <;> simp (maxDischargeDepth := 20) [h]

@[simp] theorem grows_readLines {base : Journal} (g : Setup) (mainsOk battLow service : Bool)
    {L : Live} (h : grows base L.journal) :
    grows base (readLines g mainsOk battLow service L).journal := by
  simp (maxDischargeDepth := 20) [readLines, h]

@[simp] theorem grows_closeAtRestart {base : Journal} (g : Setup) {L : Live} (h : grows base L.journal) :
    grows base (closeAtRestart g L).journal := by
  unfold closeAtRestart; split <;> simp (maxDischargeDepth := 20) [h]

@[simp] theorem grows_settleAtRestart {base : Journal} (g : Setup) {L : Live} (h : grows base L.journal) :
    grows base (settleAtRestart g L).journal := by
  have h' := grows_foldl (fun M p => settleOpen g p M) (fun M p hM => grows_settleOpen g p hM) allPos h
  unfold settleAtRestart; dsimp only
  exact h'

@[simp] theorem grows_startSequence {base : Journal} (g : Setup) {L : Live} (h : grows base L.journal) :
    grows base (startSequence g L).journal := by
  unfold startSequence; dsimp only; (repeat' split) <;> simp (maxDischargeDepth := 20) [h]

@[simp] theorem grows_finishStartup {base : Journal} (g : Setup) (kind : StartKind) (mainsOk battLow service : Bool)
    {L : Live} (h : grows base L.journal) :
    grows base (finishStartup g kind mainsOk battLow service L).journal := by
  simp (maxDischargeDepth := 20) [finishStartup, h]

@[simp] theorem grows_startupLines {base : Journal} (g : Setup) (mainsOk battLow service : Bool)
    {L : Live} (h : grows base L.journal) :
    grows base (startupLines g mainsOk battLow service L).journal := by
  unfold startupLines; split <;> simp (maxDischargeDepth := 20) [h]

@[simp] theorem grows_losePower {base : Journal} {L : Live} (h : grows base L.journal) :
    grows base (losePower L).journal := by
  simp (maxDischargeDepth := 20) [losePower, h]

@[simp] theorem grows_clearAttention {base : Journal} (items : List ClearItem) (g : Setup)
    {L : Live} (h : grows base L.journal) :
    grows base (clearAttention items g L).1.journal := by
  unfold clearAttention; split <;> simp (maxDischargeDepth := 20) [h]

@[simp] theorem grows_setClock {base : Journal} (g : Setup) (minute second : Nat)
    {L : Live} (h : grows base L.journal) :
    grows base (setClock g minute second L).journal := by
  unfold setClock; dsimp only; (repeat' split) <;> simp (maxDischargeDepth := 20) [h]

@[simp] theorem grows_setTime {base : Journal} (minute second : Nat) (force : Bool) (g : Setup)
    {L : Live} (h : grows base L.journal) :
    grows base (setTime minute second force g L).1.journal := by
  unfold setTime; (repeat' split) <;> simp (maxDischargeDepth := 20) [h]

@[simp] theorem grows_quiet {base : Journal} (on : Bool) (g : Setup) {L : Live} (h : grows base L.journal) :
    grows base (quiet on g L).1.journal := by
  simp (maxDischargeDepth := 20) [quiet, h]

@[simp] theorem grows_setRequest {base : Journal} (a : Arm) (b : Bool) {L : Live} (h : grows base L.journal) :
    grows base (setRequest a b L).journal := by
  simp (maxDischargeDepth := 20) [setRequest, h]

@[simp] theorem grows_armService {base : Journal} (arm : Nat) (enter : Bool) (g : Setup)
    {L : Live} (h : grows base L.journal) :
    grows base (armService arm enter g L).1.journal := by
  unfold armService; (repeat' split) <;> simp (maxDischargeDepth := 20) [h]

@[simp] theorem grows_startAfterReply {base : Journal} (kind : StartKind) (g : Setup)
    {L : Live} (h : grows base L.journal) :
    grows base (startAfterReply kind g L).1.journal := by
  simp (maxDischargeDepth := 20) [startAfterReply, h]

@[simp] theorem grows_discoverArm {base : Journal} (a : Arm) (g : Setup) {L : Live} (h : grows base L.journal) :
    grows base (discoverArm a g L).1.journal := by
  unfold discoverArm; (repeat' split) <;> simp (maxDischargeDepth := 20) [h]

@[simp] theorem grows_armDiscover {base : Journal} (arm : Nat) (g : Setup) {L : Live} (h : grows base L.journal) :
    grows base (armDiscover arm g L).1.journal := by
  unfold armDiscover; split <;> simp (maxDischargeDepth := 20) [h]

@[simp] theorem grows_stopArm {base : Journal} (a : Arm) (g : Setup) {L : Live} (h : grows base L.journal) :
    grows base (stopArm a g L).1.journal := by
  unfold stopArm; (repeat' split) <;> simp (maxDischargeDepth := 20) [h]

@[simp] theorem grows_armOffRequest {base : Journal} (arm : Nat) (g : Setup) {L : Live} (h : grows base L.journal) :
    grows base (armOffRequest arm g L).1.journal := by
  unfold armOffRequest; split <;> simp (maxDischargeDepth := 20) [h]

@[simp] theorem grows_showEverywhere {base : Journal} (c : DisplayCode) {L : Live} (h : grows base L.journal) :
    grows base (showEverywhere c L).journal := by
  unfold showEverywhere; exact grows_foldl _ (fun M x hM => by split <;> simp [hM]) _ h

@[simp] theorem grows_showAll {base : Journal} (code : Nat) (g : Setup) {L : Live} (h : grows base L.journal) :
    grows base (showAll code g L).1.journal := by
  unfold showAll; split <;> simp (maxDischargeDepth := 20) [h]

@[simp] theorem grows_putCard {base : Journal} (r : CardRec) {L : Live} (h : grows base L.journal) :
    grows base (putCard r L).journal := by
  simp (maxDischargeDepth := 20) [putCard, h]

@[simp] theorem grows_cardPut {base : Journal} (c : CardPut) (g : Setup) {L : Live} (h : grows base L.journal) :
    grows base (cardPut c g L).1.journal := by
  unfold cardPut; dsimp only; (repeat' split) <;> simp (maxDischargeDepth := 20) [h]

@[simp] theorem grows_cardDrop {base : Journal} (card : CardId) (g : Setup) {L : Live} (h : grows base L.journal) :
    grows base (cardDrop card g L).1.journal := by
  unfold cardDrop; (repeat' split) <;> simp (maxDischargeDepth := 20) [h]

@[simp] theorem grows_cardUnknown {base : Journal} (card : CardId) (g : Setup) {L : Live} (h : grows base L.journal) :
    grows base (cardUnknown card g L).1.journal := by
  unfold cardUnknown; split <;> simp (maxDischargeDepth := 20) [h]

@[simp] theorem grows_resolveTakenAt {base : Journal} (p : Pos) (g : Setup) {L : Live} (h : grows base L.journal) :
    grows base (resolveTakenAt p g L).1.journal := by
  unfold resolveTakenAt; (repeat' split) <;> simp (maxDischargeDepth := 20) [h]

@[simp] theorem grows_resolveKeptAt {base : Journal} (p : Pos) (g : Setup) {L : Live} (h : grows base L.journal) :
    grows base (resolveKeptAt p g L).1.journal := by
  unfold resolveKeptAt; (repeat' split) <;> simp (maxDischargeDepth := 20) [h]

@[simp] theorem grows_resolveGone {base : Journal} (bike : BikeId) (p : Pos) (g : Setup)
    {L : Live} (h : grows base L.journal) :
    grows base (resolveGone bike p g L).1.journal := by
  unfold resolveGone; (repeat' split) <;> simp (maxDischargeDepth := 20) [h]

@[simp] theorem grows_resolveVacate {base : Journal} (p : Pos) (g : Setup) {L : Live} (h : grows base L.journal) :
    grows base (resolveVacate p g L).1.journal := by
  unfold resolveVacate; (repeat' split) <;> simp (maxDischargeDepth := 20) [h]

theorem grows_decideRemote_eq {base : Journal} {g : Setup} {p : Pos} {c : CardId} {L M : Live}
    {o : Option DisplayCode} (e : decideRemote g p c L = (o, M)) (h : grows base L.journal) :
    grows base M.journal := by
  have := grows_decideRemote g p c h
  rw [e] at this; exact this

@[simp] theorem grows_remoteReleaseAt {base : Journal} (tag : Byte) (card : CardId) (p : Pos) (g : Setup) {L : Live}
    (h : grows base L.journal) : grows base (remoteReleaseAt tag card p g L).1.journal := by
  unfold remoteReleaseAt; split
  · exact h
  · split
    · exact h
    · split
      · next e => exact grows_placeMessage p _ (grows_decideRemote_eq e h)
      · next e => simpa using grows_decideRemote_eq e h

@[simp] theorem grows_remoteRead {base : Journal} (g : Setup) {L : Live} (h : grows base L.journal) :
    grows base (remoteRead g L).1.journal := by
  simp (maxDischargeDepth := 20) [remoteRead, h]

@[simp] theorem grows_openVisit {base : Journal} (g : Setup) (van : VanId) (card : CardId) (window : Nat) {L : Live}
    (h : grows base L.journal) : grows base (openVisit g van card window L).1.journal := by
  unfold openVisit; dsimp only
  refine grows_reserve g _ _ (grows_reserve g _ _ ?_)
  exact grows_append _ _ _ h

@[simp] theorem grows_vanOpen {base : Journal} (van : VanId) (card : CardId) (window : Nat) (g : Setup)
    {L : Live} (h : grows base L.journal) :
    grows base (vanOpen van card window g L).1.journal := by
  unfold vanOpen; split <;> simp (maxDischargeDepth := 20) [h]

@[simp] theorem grows_vanClose {base : Journal} (g : Setup) {L : Live} (h : grows base L.journal) :
    grows base (vanClose g L).1.journal := by
  unfold vanClose; split <;> simp (maxDischargeDepth := 20) [h]

@[simp] theorem grows_faultAck {base : Journal} (n : Nat) (g : Setup) {L : Live} (h : grows base L.journal) :
    grows base (faultAck n g L).1.journal := by
  unfold faultAck; split <;> simp (maxDischargeDepth := 20) [h]

@[simp] theorem grows_faultClear {base : Journal} (n : Nat) (g : Setup) {L : Live} (h : grows base L.journal) :
    grows base (faultClear n g L).1.journal := by
  unfold faultClear; (repeat' split) <;> simp (maxDischargeDepth := 20) [h]

@[simp] theorem grows_presetChanged {base : Journal} (before after : Setup) {L : Live} (h : grows base L.journal) :
    grows base (presetChanged before after L).journal := by
  unfold presetChanged
  refine grows_foldl _ (fun M p hM => ?_) _ h
  (repeat' split) <;> simp [hM]

@[simp] theorem grows_counterReset {base : Journal} (pos : Nat) (g : Setup) {L : Live} (h : grows base L.journal) :
    grows base (counterReset pos g L).1.journal := by
  unfold counterReset; split <;> simp (maxDischargeDepth := 20) [h]

end Sys2Proof.Machine
end

