-- ==== Sys2Proof/Laws/PerInstr.lean ====
section
/-! SUPPORT. What holds of every command as syntax, one lemma a constructor: a request row carries a request kind of the
table of section 10.5, and no tag but that of REMOTE RELEASE. -/

namespace Sys2Proof.Laws.Opcode

open Sys2Proof.Machine

/-- The kind of a request row is 1 to 41 (R207), and its tag is 0 but for REMOTE RELEASE, kind 23 (log 4). -/
def Statement (i : Instr) : Prop :=
  ∀ kind tag : Byte, requestOf i = some (kind, tag) →
    1 ≤ kind.toNat ∧ kind.toNat ≤ 41 ∧ (kind ≠ 23 → tag = 0)

theorem every (i : Instr) : Statement i := by
  intro k t h
  cases i <;> simp only [requestOf, Option.some.injEq, Prod.mk.injEq, reduceCtorEq] at h <;>
    first
      | exact h.elim
      | (obtain ⟨rfl, rfl⟩ := h; exact ⟨by decide, by decide, fun hk => by first | rfl | exact absurd rfl hk⟩)

theorem status : Statement .status := every _

theorem clearAttention (items : List ClearItem) : Statement (.clearAttention items) := every _

theorem setTime (minute second : Nat) (force : Bool) : Statement (.setTime minute second force) := every _

theorem readTime : Statement .readTime := every _

theorem stationSetup (station slotMs : Nat) : Statement (.stationSetup station slotMs) := every _

theorem startOrder (arms : List Nat) : Statement (.startOrder arms) := every _

theorem quietOn : Statement .quietOn := every _

theorem quietOff : Statement .quietOff := every _

theorem armServiceEnter (arm : Nat) : Statement (.armServiceEnter arm) := every _

theorem armServiceLeave (arm : Nat) : Statement (.armServiceLeave arm) := every _

theorem restart : Statement .restart := every _

theorem coldClear : Statement .coldClear := every _

theorem armConfigure (arm expected : Nat) (nightOff holdoverKeep service : Bool) : Statement (.armConfigure arm expected nightOff holdoverKeep service) := every _

theorem armDiscover (arm : Nat) : Statement (.armDiscover arm) := every _

theorem armOff (arm : Nat) : Statement (.armOff arm) := every _

theorem showAll (code : Nat) : Statement (.showAll code) := every _

theorem dockRead (pos : Nat) : Statement (.dockRead pos) := every _

theorem cardPut (fields : CardPut) : Statement (.cardPut fields) := every _

theorem cardDrop (card : CardId) : Statement (.cardDrop card) := every _

theorem cardRead (card : CardId) : Statement (.cardRead card) := every _

theorem cardPage (page : Nat) : Statement (.cardPage page) := every _

theorem cardUnknown (card : CardId) : Statement (.cardUnknown card) := every _

theorem queryRead : Statement .queryRead := every _

theorem dockResolveTaken (pos : Nat) : Statement (.dockResolveTaken pos) := every _

theorem dockResolveKept (pos : Nat) : Statement (.dockResolveKept pos) := every _

theorem dockResolveGone (pos : Nat) (bike : BikeId) : Statement (.dockResolveGone pos bike) := every _

theorem dockResolveVacate (pos : Nat) : Statement (.dockResolveVacate pos) := every _

theorem remoteRelease (tag : Byte) (pos : Nat) (card : CardId) : Statement (.remoteRelease tag pos card) := every _

theorem remoteRead : Statement .remoteRead := every _

theorem hireSettings (take settlement query : Nat) : Statement (.hireSettings take settlement query) := every _

theorem tariffStage (plan : Nat) (fields : PlanFields) : Statement (.tariffStage plan fields) := every _

theorem tariffCommit (revision : Nat) : Statement (.tariffCommit revision) := every _

theorem tariffRead (generation : Nat) : Statement (.tariffRead generation) := every _

theorem journalRead (start count : Nat) : Statement (.journalRead start count) := every _

theorem journalRelease (through : Nat) : Statement (.journalRelease through) := every _

theorem bandSet (low target high : Nat) : Statement (.bandSet low target high) := every _

theorem fillRead : Statement .fillRead := every _

theorem vanOpen (van : VanId) (card : CardId) (window : Nat) : Statement (.vanOpen van card window) := every _

theorem vanClose : Statement .vanClose := every _

theorem vanRead : Statement .vanRead := every _

theorem faultAck (number : Nat) : Statement (.faultAck number) := every _

theorem faultClear (number : Nat) : Statement (.faultClear number) := every _

theorem faultRead (place count : Nat) : Statement (.faultRead place count) := every _

theorem presetSetValue (preset value : Nat) : Statement (.presetSetValue preset value) := every _

theorem presetSetAssign (pos index : Nat) : Statement (.presetSetAssign pos index) := every _

theorem counterRead (arm : Nat) : Statement (.counterRead arm) := every _

theorem counterReset (pos : Nat) : Statement (.counterReset pos) := every _

theorem hostFrame (bytes : List Byte) : Statement (.hostFrame bytes) := every _

theorem frameGap : Statement .frameGap := every _

theorem replySent : Statement .replySent := every _

theorem mainsOkTrue : Statement .mainsOkTrue := every _

theorem mainsOkFalse : Statement .mainsOkFalse := every _

theorem battLowTrue : Statement .battLowTrue := every _

theorem battLowFalse : Statement .battLowFalse := every _

theorem serviceLineAsserted : Statement .serviceLineAsserted := every _

theorem serviceLineReleased : Statement .serviceLineReleased := every _

theorem sequenceStep : Statement .sequenceStep := every _

theorem resetPin : Statement .resetPin := every _

theorem powerApplied (batteryFlat : Bool) : Statement (.powerApplied batteryFlat) := every _

theorem clockTick : Statement .clockTick := every _

theorem pollAnswer (arm : Arm) (answer : PollAnswer) : Statement (.pollAnswer arm answer) := every _

theorem commandAnswer (arm : Arm) (answer : CommandAnswer) : Statement (.commandAnswer arm answer) := every _

theorem discoveryIdentifyAnswer (arm : Arm) (answer : IdentifyAnswer) : Statement (.discoveryIdentifyAnswer arm answer) := every _

theorem recoveryProbeAnswer (arm : Arm) (answer : IdentifyAnswer) : Statement (.recoveryProbeAnswer arm answer) := every _

theorem passPowerAnswer (arm : Arm) (answer : PassPowerResult) : Statement (.passPowerAnswer arm answer) := every _

theorem switchReportAnswer (arm : Arm) (switch : Switch) (sense : Sense) : Statement (.switchReportAnswer arm switch sense) := every _

theorem openSwitchAnswer (arm : Arm) (answer : OpenSwitchResult) : Statement (.openSwitchAnswer arm answer) := every _

theorem answerTimeout (arm : Arm) : Statement (.answerTimeout arm) := every _

theorem identifyTimeout (arm : Arm) : Statement (.identifyTimeout arm) := every _

theorem recoveryTimer (pos : Pos) : Statement (.recoveryTimer pos) := every _

theorem slotExpiry (arm : Arm) : Statement (.slotExpiry arm) := every _

theorem rootSenseReading (arm : Arm) (sense : Sense) : Statement (.rootSenseReading arm sense) := every _

theorem queryTimeout (card : CardId) : Statement (.queryTimeout card) := every _

theorem settlementWindowExpiry (pos : Pos) : Statement (.settlementWindowExpiry pos) := every _

theorem vanWindowExpiry : Statement .vanWindowExpiry := every _

theorem startupLineRead (mainsOk battLow service : Bool) : Statement (.startupLineRead mainsOk battLow service) := every _

theorem powerRemoved : Statement .powerRemoved := every _

end Sys2Proof.Laws.Opcode
end

