-- ==== Sys2Proof/Laws/Polls.lean ====
section
/-! SUPPORT. What the answer to a poll does, said once: the step of POLL_ANSWER at an arm that polls, and when an answer
is taken or a settled latch kept. Proofs about node events cite these and unfold no step. -/

namespace Sys2Proof.Machine

/-! ## Positions -/

@[simp] theorem armOf_posAt (a : Arm) (k : Nat) : armOf (posAt a k) = a := by
  ext; simp only [armOf, posAt]; omega

theorem numOf_posAt {k : Nat} (a : Arm) (h1 : 1 ≤ k) (h2 : k ≤ 16) : numOf (posAt a k) = k := by
  simp only [numOf, posAt]; omega

/-! ## Answers taken once (R14) -/

theorem takeAnswer_repeated {g : Setup} {p : Pos} {ans : PollAnswer} {L : Live}
    (h : (L.link p).lastAnswer = some ans.number) : takeAnswer g p ans L = L := by
  simp [takeAnswer, answerRepeats, h]

theorem takeAnswer_new {g : Setup} {p : Pos} {ans : PollAnswer} {L : Live}
    (h : (L.link p).lastAnswer ≠ some ans.number) :
    takeAnswer g p ans L = takeEvents g p ans (updLink p (fun l => { l with lastAnswer := some ans.number }) L) := by
  simp [takeAnswer, answerRepeats, h]

/-- POLL_ANSWER at an arm that polls position k: the node has answered, a code that a delivered message replaced is
placed again, the answer is taken, the offers that waited for it are made, and the arms hand out what is due. -/
theorem exec_pollAnswer_polling {a : Arm} {k : Nat} {s : State} (h : Polling a k s) (ans : PollAnswer) :
    ∃ rep : Option DisplayCode,
      let p := posAt a k
      let heard := delivered p rep (answered s.setup p (clearTxn a s.live))
      let taken := retryCloses p (takeAnswer s.setup p ans heard)
      exec (.pollAnswer a ans) s = .next { s with live := pump (afterTxn s.setup a (checkLamp p taken)) } := by
  obtain ⟨⟨hp, hb⟩, -, -, -, -, code, rep, acks, ht⟩ := h
  refine ⟨rep, ?_⟩
  simp [exec, execPollAnswer, goes, working, hp, hb, pollAnswered, ht]

/-! ## Settled latches (R42, R80) -/

theorem dropSettled_kept {g : Setup} {p : Pos} {L : Live} (hk : (L.dock p).kind = some .dock)
    (hn : (L.dock p).known = true) : dropSettled g p L = L := by simp [dropSettled, hk, hn]

theorem dropSettled_dropped {g : Setup} {p : Pos} {L : Live}
    (h : (L.dock p).kind ≠ some .dock ∨ (L.dock p).known = false) :
    dropSettled g p L = updDock g p (fun d => { d with latch := none, snapshot := none, lastBikeIn := none }) L := by
  unfold dropSettled
  rcases h with h | h <;> simp [h]

end Sys2Proof.Machine
end

