-- ==== Sys2Proof/Tests/Slice0.lean ====
section
/-! SUPPORT. The model's own tests: each check of WellFormed refuses an ill-formed command; the hypotheses of each
statement are met by a concrete state, clause by clause; small steps whose results stand in the spec's tables and worked
examples. -/

namespace Sys2Proof.Tests

set_option Elab.async false

open Sys2Proof.Machine

/-! ## Small states -/

/-- The state after a command. -/
def after (c : Instr) (s : State) : State :=
  match exec c s with
  | .next t => t
  | .fault _ => s
  | .refused _ => s

/-- The reply a command leaves in hand. -/
def replyOf (c : Instr) (s : State) : Option Reply := (after c s).live.port.inHand.map fun h => h.reply

/-- The result code of that reply. -/
def resultOf (c : Instr) (s : State) : Option Result := (replyOf c s).map fun r => r.result

/-- The part in RUN with a valid clock, every arm OFF. -/
def base : State :=
  { State.reset with
    setup := { Setup.cold with station := some 7 }
    live :=
      { Live.cold with
        boot := none, power := { Power.initial with mainsOk := true }
        clock := { minute := 1000, second := 0, valid := true } } }

def withLive (f : Live → Live) (s : State) : State := { s with live := f s.live }

def withPower (p : PowerState) (s : State) : State := withLive (fun L => { L with power := { L.power with state := p } }) s

/-- A part without supply. -/
def dark : State := withLive (fun L => { L with powered := false }) base

def member (id : Nat) : CardRec :=
  { card := BitVec.ofNat 64 id, role := .member, plan := 2, allowance := 1, outCount := 0, status := .good, expiry := none
    holdIssued := 0, holdRemaining := 0, source := .link, closure := none }

def pass (id : Nat) : CardRec :=
  { member id with role := .pass, expiry := some 2000, holdIssued := 2000, holdRemaining := 2000 }

def stampOf (card start : Nat) : Stamp :=
  { card := BitVec.ofNat 64 card, start := start, originStation := 7, originPos := 0, plan := 2, revision := 0, pass := false }

def bike (n : Nat) : Tag := { bike := BitVec.ofNat 32 n, kind := .pedal, stamp := .none, mark := none }

def emptyDock : DockRec :=
  { DockRec.cold with
    kind := some .dock, serial := some 1, link := .ready, latch := some .empty, lamp := some .on, lastResting := some .ready }

def heldDock : DockRec :=
  { emptyDock with latch := some .held, snapshot := some (.read (bike 5)), lastBikeIn := some 1 }

def runningArm : ArmRec := { ArmRec.initial with state := .running, rootClosed := true }

/-- All arms RUNNING, bike 5 HELD at A01, A02 an empty dock, a member and a pass in the list. -/
def line : State :=
  withLive
    (fun L =>
      { L with
        arms := Vector.replicate 4 runningArm
        docks := (L.docks.set 0 heldDock).set 1 emptyDock
        cards := [member 1, pass 2] })
    base

def withArm (r : ArmRec) (s : State) : State := withLive (fun L => { L with arms := L.arms.set 0 r }) s

def withDock (d : DockRec) (s : State) : State := withLive (fun L => { L with docks := L.docks.set 0 d }) s

/-- The line with a transaction and line work in progress on arm A. -/
def busy (t : Txn) (w : Work) : State := withArm { runningArm with txn := some t, work := w } line

/-! ## Well-formedness: each check refuses an ill-formed command -/

theorem test_wf_accepts_plain : Instr.status.wf = true ∧ (Instr.setTime 4294967295 255 false).wf = true := by decide
theorem test_wf_list_count : (Instr.clearAttention (List.replicate 256 { kind := 1, count := 0 })).wf = false := by decide +kernel
theorem test_wf_list_item : (Instr.clearAttention [{ kind := 256, count := 0 }]).wf = false := by decide
theorem test_wf_byte : (Instr.dockRead 256).wf = false := by decide
theorem test_wf_two_bytes : (Instr.stationSetup 65536 100).wf = false := by decide
theorem test_wf_four_bytes : (Instr.journalRelease 4294967296).wf = false := by decide
theorem test_wf_order : (Instr.startOrder [0, 256]).wf = false := by decide
theorem test_wf_arm_record : (Instr.armConfigure 0 256 false false false).wf = false := by decide
theorem test_wf_card_put :
    (Instr.cardPut { card := 1, role := .member, plan := 0, allowance := 256, status := .good, expiry := none
                     outCount := none, holdIssued := none, holdRemaining := none }).wf = false := by decide
theorem test_wf_plan_fields :
    (Instr.tariffStage 0 { F := 0, B := 1, P := 4294967296, E := 0, C := 0, K := 0, W := 0, M := 0 }).wf = false := by decide
theorem test_wf_three_bytes :
    (Instr.hireSettings 10 256 1).wf = false ∧ (Instr.bandSet 0 0 256).wf = false := by decide
theorem test_wf_two_operands :
    (Instr.faultRead 0 256).wf = false ∧ (Instr.presetSetValue 1 4294967296).wf = false ∧
      (Instr.presetSetAssign 256 0).wf = false := by decide
theorem test_wf_five_events :
    (Instr.pollAnswer 0 { number := 1, events := List.replicate 5 .taken, overrun := false }).wf = false := by decide
theorem test_wf_event_stamp :
    (Instr.pollAnswer 0
      { number := 1, overrun := false
        events := [.bikeIn (.read { bike 5 with stamp := .opened { stampOf 1 0 with originStation := 0 } })] }).wf = false := by
  decide
theorem test_wf_event_pass :
    (Instr.pollAnswer 0 { number := 1, overrun := false, events := [.passHeld 1 0 0 0 0] }).wf = false := by decide
theorem test_wf_identify :
    (Instr.discoveryIdentifyAnswer 0
      { serial := 1, switch := .opened, lamp := .on
        report := .dock .idle (some (.read { bike 5 with mark := some { minute := 0, station := 65536 } })) }).wf = false := by
  decide
theorem test_no_word_spells_a_command : decodeTableWord 8 0 = none ∧ line.withFetchWord 8 0 = line := by decide +kernel

/-! ## The hypotheses of the statements are met -/

theorem base_taking : Taking base := ⟨⟨rfl, rfl⟩, by decide⟩
theorem line_taking : Taking line := ⟨⟨rfl, rfl⟩, by decide⟩
theorem line_working : Working line := ⟨rfl, rfl⟩

/-- The line in HOLDOVER, in OFF, in QUIET. -/
def held : State := withPower .holdover line
def off : State := withPower .off line
def quiet : State := withPower .quiet line

theorem powers_working : Working held ∧ Working off ∧ Working quiet := ⟨⟨rfl, rfl⟩, ⟨rfl, rfl⟩, ⟨rfl, rfl⟩⟩
theorem holdover_taking : Taking held ∧ held.live.power.state = .holdover := ⟨⟨⟨rfl, rfl⟩, by decide⟩, rfl⟩

theorem witness_StepRunsTheFrontCommand : State.reset.pending = [] := rfl

theorem witness_RequestsTurnedAway :
    requestOf .readTime = some (4, 0) ∧ dark.live.powered = false ∧ State.reset.live.powered = true ∧
      State.reset.live.boot ≠ none ∧ Working off ∧ off.live.power.state = .off ∧ (4 : Byte) ≠ 1 :=
  ⟨rfl, rfl, rfl, by decide, powers_working.2.1, rfl, by decide⟩

/-- For ReadersChangeOnlyTheReply, TariffReadReturnsOneGeneration, FillReadReturnsTheFillFigures,
QueryReadReturnsEveryEntry: a state that takes requests, and the first generation number that is none. -/
theorem witness_readers : Working line ∧ Taking line ∧ 3 ≤ 3 := ⟨line_working, line_taking, by decide⟩

theorem witness_ReadersOutsideTheirRanges :
    Taking line ∧ 64 ≤ 64 ∧ 128 ≤ 128 ∧ 4 ≤ 4 ∧ 8 < 9 ∧ 95 < 96 ∧
      findCard line.live.cards 9 = none ∧ findQuery line.live 9 = none :=
  ⟨line_taking, by decide, by decide, by decide, by decide, by decide, by decide +kernel, rfl⟩

theorem test_readers_at_the_edges :
    resultOf (.dockRead 63) line = some .done ∧ resultOf (.dockRead 64) line = some .range ∧
      resultOf (.cardPage 127) line = some .done ∧ resultOf (.counterRead 3) line = some .done ∧
      resultOf (.journalRead 0 8) line = some .done ∧ resultOf (.faultRead 95 8) line = some .done ∧
      resultOf (.faultRead 96 8) line = some .range := by decide +kernel

theorem witness_JournalReadFitsAFrame : 1 ≤ 8 ∧ 8 ≤ 8 := by decide

/-- All twelve kinds of R200 and R201, each with the count 17. -/
def allKinds : List ClearItem := (List.range 12).map fun k => { kind := k, count := 17 }

theorem witness_ClearAttentionRemovesMatchingKinds :
    Taking line ∧ clearListOk allKinds = true ∧ clearListOk [{ kind := 8, count := 0 }] = true ∧ clearListOk [] = false ∧
      clearListOk [{ kind := 12, count := 0 }] = false ∧
      clearListOk [{ kind := 1, count := 0 }, { kind := 1, count := 0 }] = false :=
  ⟨line_taking, by decide +kernel, by decide +kernel, by decide +kernel, by decide +kernel, by decide +kernel⟩

/-- The line with a request in hand. -/
def inHand : State := setInHand 9 0 (done []) line

theorem witness_RepliesEndAndStartUpsFollow :
    let s := withLive (fun L => { L with port := { L.port with startAfter := some .cold } }) inHand
    Taking line ∧ s.live.powered = true ∧ s.live.port.inHand ≠ none ∧ s.live.port.startAfter = some .cold ∧
      inHand.live.port.inHand ≠ none ∧ inHand.live.port.startAfter = none ∧ line.live.port.inHand = none :=
  ⟨line_taking, by decide +kernel⟩

theorem witness_AWholeFrameIsTaken :
    let kept := withLive (fun L => { L with port := { L.port with busy := some (4, 0) } }) inHand
    (∀ b ∈ [(0 : Byte), 0xFF], b ≠ Config.sync) ∧ (List.replicate 240 (0 : Byte)).length ≤ 240 ∧
      line.live.powered = true ∧ line.live.port.rx = [] ∧ line.live.port.inHand = none ∧
      inHand.live.powered = true ∧ inHand.live.port.rx = [] ∧ inHand.live.port.inHand ≠ none ∧
      inHand.live.port.busy = none ∧ kept.live.powered = true ∧ kept.live.port.rx = [] ∧
      kept.live.port.inHand ≠ none ∧ kept.live.port.busy ≠ none := by decide +kernel

theorem witness_AFrameCutShortIsOnlyCollected :
    line.live.powered = true ∧ ([1] : List Byte).length ≤ 240 ∧
      frame 7 0 [1] = [0xA5] ++ (frame 7 0 [1]).drop 1 ∧ (frame 7 0 [1]).drop 1 ≠ [] ∧
      (∀ b ∈ [(0 : Byte)], b ≠ Config.sync) ∧ line.live.port.rx = [] := by decide +kernel

theorem witness_FrameBodiesNameTheirRows :
    line.live.powered = true ∧ fits1 255 = true ∧ fits2 65535 = true ∧ fits4 4294967295 = true ∧
      (PlanFields.wf
        { F := 255, B := 255, P := 4294967295, E := 0, C := 4294967295, K := 0, W := 255, M := 4294967295 }) = true := by
  decide +kernel

/-- A tag with every field at the top of its range. -/
def fullTag : Tag :=
  { bike := 0xFFFFFFFF#32, kind := .ebike
    stamp := .closed
      { card := 0xFFFFFFFFFFFFFFFF#64, start := 4294967295, originStation := 65535, originPos := 255, plan := 7
        revision := 65535, pass := true } 4294967295
    mark := some { minute := 4294967295, station := 65535 } }

theorem witness_TagBytesReadBack : fullTag.wf = true ∧ (bike 5).wf = true := by decide

theorem witness_StationAndHireSettingsAreSet : Taking base ∧ 1 ≤ 65535 ∧ 65535 ≤ 65535 ∧ 65535 < 65536 :=
  ⟨base_taking, by decide, by decide, by decide⟩

theorem witness_StartOrderAndArmRecordsAreReplaced :
    let up := withLive (fun L => { L with power := { L.power with service := true } }) base
    Taking base ∧ [3, 0, 2, 1].Perm [0, 1, 2, 3] ∧ ¬ [0, 0, 1, 2].Perm [0, 1, 2, 3] ∧ ¬ [0, 1, 2].Perm [0, 1, 2, 3] ∧
      16 < 17 ∧ 4 ≤ 4 ∧ (3 : Arm).val = 3 ∧ 16 ≤ 16 ∧ Taking up ∧ up.live.power.service = true ∧
      true ≠ (up.setup.arms[(3 : Arm)]).service ∧
      ¬(base.live.power.service = true ∧ true ≠ (base.setup.arms[(3 : Arm)]).service) := by
  refine ⟨base_taking, ?_, ?_, ?_, ?_, ?_, ?_, ?_, ⟨⟨rfl, rfl⟩, ?_⟩, ?_⟩ <;> decide +kernel

/-- Plan fields at the tops of their ranges (R95). -/
def topPlan : PlanFields := { F := 240, B := 120, P := 5000, E := 5000, C := 100000, K := 2000, W := 60, M := 100000 }

theorem witness_TariffStageWritesOnePlan :
    Taking base ∧ 8 ≤ 8 ∧ (7 : PlanClass).val = 7 ∧ topPlan.F ≤ 240 ∧ 1 ≤ topPlan.B ∧ topPlan.B ≤ 120 ∧
      topPlan.P ≤ 5000 ∧ topPlan.E ≤ 5000 ∧ topPlan.C ≤ 100000 ∧ topPlan.K ≤ 2000 ∧ topPlan.W ≤ 60 ∧
      topPlan.M ≤ 100000 ∧ ¬ (1 ≤ ({ topPlan with B := 0 } : PlanFields).B) :=
  ⟨base_taking, by decide⟩

theorem witness_TariffCommitMovesTheGenerations :
    let s : State := { base with setup := { base.setup with current := { base.setup.current with revision := 8 } } }
    Taking base ∧ 65535 < 65536 ∧ 1 ≤ 65535 ∧ 65535 ≤ 65535 ∧ 65535 ≠ base.setup.current.revision ∧
      65535 ≠ base.setup.previous.revision ∧ Taking s ∧ 1 ≤ 8 ∧ 8 ≤ 65535 ∧ 8 = s.setup.current.revision := by
  refine ⟨base_taking, ?_, ?_, ?_, ?_, ?_, ⟨⟨rfl, rfl⟩, ?_⟩, ?_⟩ <;> decide

theorem witness_BandSetTakesTheBand : Taking base ∧ 64 < 65 ∧ 3 < 4 ∧ 64 ≤ 64 := ⟨base_taking, by decide⟩

theorem witness_PresetsAndCountersAreSet :
    Taking base ∧ 4 < 5 ∧ 999999 < 1000000 ∧ 64 ≤ 64 ∧ 1 ≤ 999999 ∧ 999999 ≤ 999999 ∧
      (∀ p : Pos, (base.setup.presetIndex[p]).val = 0 + 1 → base.live.counter p < 999999) ∧
      (∀ v, applying { base.setup with presetIndex := base.setup.presetIndex.set 0 1 } 0 = some v → base.live.counter 0 < v) := by
  refine ⟨base_taking, by decide, by decide, by decide, by decide, by decide, by decide +kernel, ?_⟩
  intro v h
  have : applying { base.setup with presetIndex := base.setup.presetIndex.set 0 1 } 0 = none := by decide +kernel
  rw [this] at h; cases h

theorem witness_StepKeeps :
    State.reset.setup.ok = true ∧ State.reset.live.clock.second < 60 ∧ State.reset.live.journal.numbered = true ∧
      step State.reset = .next State.reset := ⟨by decide +kernel, by decide, by decide, rfl⟩

theorem witness_SetTimeSetsTheClock :
    let c := base.live.clock
    Taking base ∧ 59 < 60 ∧ 59 ≤ 59 ∧ base.setup.station ≠ none ∧ State.reset.setup.station = none ∧
      Taking { base with setup := Setup.cold } ∧
      (c.valid = true ∧ 997 * 60 + 59 + 120 < c.minute * 60 + c.second) ∧
      ¬(998 * 60 + 0 + 120 < c.minute * 60 + c.second) := by
  refine ⟨base_taking, by decide, by decide, by decide, rfl, ⟨⟨rfl, rfl⟩, by decide⟩, by decide, by decide⟩

theorem test_set_time_backwards :
    resultOf (.setTime 997 59 false) base = some .clockStep ∧ resultOf (.setTime 998 0 false) base = some .done ∧
      resultOf (.setTime 997 59 true) base = some .done := by decide +kernel

/-- The line with a visit OPEN. -/
def visitData : VisitRec :=
  { van := 31, card := 1, opening := 1000, window := 30, secondsLeft := 1800, pickupsPlanned := 0, dropsPlanned := 1
    collectionsPlanned := 0, pickupsDone := 0, dropsDone := 0, collectionsDone := 0, close := none, summaryPending := false }
def visiting : State := withLive (fun L => { L with visit := { state := .opened, data := some visitData } }) line

theorem witness_ClockTickCountsASecond :
    line.live.clock.second < 59 ∧ Working line ∧ ¬ Working State.reset ∧ State.reset.live.clock.second < 59 ∧
      visitOn visiting.live = true ∧ visiting.live.power.state = .run ∧ Working visiting ∧ visitOn line.live = false ∧
      Working off ∧ off.live.power.state = .off ∧ off.live.clock.second < 59 := by
  refine ⟨by decide, line_working, (fun h => by cases h.2), by decide, by decide, rfl, ⟨rfl, rfl⟩, by decide, ⟨rfl, rfl⟩,
    rfl, by decide⟩

theorem witness_QuietChangesThePowerState :
    Taking line ∧ line.live.power.state ≠ .holdover ∧ (after .quietOn line).live.power.state ≠ line.live.power.state ∧
      Taking held ∧ held.live.power.state = .holdover :=
  ⟨line_taking, by decide, by decide +kernel, holdover_taking⟩

theorem witness_MainsLossEntersHoldover :
    let low := withLive (fun L => { L with power := { L.power with battLow := true } }) line
    Working held ∧ held.live.power.state = .holdover ∧ Working line ∧ line.live.power.state = .run ∧
      line.live.power.battLow = false ∧ Working low ∧ low.live.power.state = .run ∧ low.live.power.battLow = true ∧
      (low.live.arm 0).state.active = true := by
  refine ⟨⟨rfl, rfl⟩, rfl, ⟨rfl, rfl⟩, rfl, rfl, ⟨rfl, rfl⟩, rfl, rfl, by decide⟩

theorem witness_MainsReturnLeavesHoldover :
    Working line ∧ line.live.power.state = .run ∧ Working off ∧ off.live.power.state = .off ∧ Working held ∧
      held.live.power.state = .holdover := ⟨⟨rfl, rfl⟩, rfl, ⟨rfl, rfl⟩, rfl, ⟨rfl, rfl⟩, rfl⟩

theorem witness_LowBatteryInHoldoverEntersOff :
    Working line ∧ line.live.power.state ≠ .holdover ∧ Working held ∧ held.live.power.state = .holdover ∧
      (held.live.arm 3).state.active = true := ⟨⟨rfl, rfl⟩, by decide, ⟨rfl, rfl⟩, rfl, by decide⟩

theorem witness_ServiceLineHoldsItsArms : Working line ∧ (line.live.arm 0).state = .running := ⟨⟨rfl, rfl⟩, rfl⟩

/-- A part with an arm sequence in flight. -/
def sequenced (x : StepAction) (w : Bool) (s : State) : State :=
  withLive (fun L => { L with power := { L.power with sequence := [(x, 0)], waiting := w } }) s

theorem witness_SequenceStepTakesTheNextStep :
    Working line ∧ line.live.power.sequence = [] ∧ (sequenced .start true line).live.power.waiting = true ∧
      Working (sequenced .start false base) ∧ (sequenced .start false base).live.power.waiting = false ∧
      (sequenced .start false base).live.power.sequence = (.start, 0) :: [] ∧
      ((sequenced .start false base).live.arm 0).state = .off ∧ Working (sequenced .stop false line) ∧
      (sequenced .stop false line).live.power.sequence = (.stop, 0) :: [] ∧
      ((sequenced .stop false line).live.arm 0).state.active = true ∧
      (let s := sequenced .start false (withArm { runningArm with state := .stopping } line)
       Working s ∧ s.live.power.waiting = false ∧ (s.live.arm 0).state = .stopping) := by
  refine ⟨⟨rfl, rfl⟩, rfl, rfl, ⟨rfl, rfl⟩, rfl, rfl, rfl, ⟨rfl, rfl⟩, rfl, by decide, ⟨rfl, rfl⟩, rfl, rfl⟩

/-- The retained store lost. -/
def lost (s : State) : State := withLive (fun L => { L with storeValid := false }) s

theorem witness_RestartKeepsTheRetainedStore :
    line.live.storeValid = true ∧ line.live.powered = true ∧ dark.live.storeValid = true ∧ dark.live.powered = false :=
  ⟨rfl, rfl, rfl, rfl⟩

theorem witness_LostStoreMakesAColdReset :
    (lost line).live.powered = true ∧ (lost line).live.storeValid = false ∧ (lost dark).live.powered = false ∧
      (lost dark).live.storeValid = false ∧ dark.live.powered = false := ⟨rfl, rfl, rfl, rfl, rfl⟩

theorem witness_StartupLinesChooseThePowerState :
    line.live.powered = true ∧ line.live.boot = none ∧ State.reset.live.powered = true ∧
      State.reset.live.boot = some .cold := ⟨rfl, rfl, rfl, rfl⟩

theorem witness_ArmServiceSetsTheRequest :
    let owned : State :=
      { withLive (fun L => { L with power := { L.power with service := true } }) line with
        setup := { line.setup with arms := Vector.replicate 4 { coldArmConfig with service := true } } }
    Taking line ∧ 4 ≤ 4 ∧ (0 : Arm).val = 0 ∧ (line.live.power.service && (line.setup.arms[(0 : Arm)]).service) = false ∧
      (line.live.arm 0).state ≠ .failed ∧ Taking owned ∧
      (owned.live.power.service && (owned.setup.arms[(0 : Arm)]).service) = true ∧
      Taking (withArm { ArmRec.initial with state := .failed } line) ∧
      ((withArm { ArmRec.initial with state := .failed } line).live.arm 0).state = .failed := by
  refine ⟨line_taking, by decide, rfl, rfl, by decide, ⟨⟨rfl, rfl⟩, by decide⟩, rfl, ⟨⟨rfl, rfl⟩, by decide⟩, rfl⟩

theorem witness_ArmDiscoverBeginsADiscovery :
    let shed := withLive (fun L => { L with power := { L.power with shedSet := Vector.replicate 4 true } }) base
    let walking := withArm { runningArm with work := .waitSlot 2, discovery := some .extended } line
    let arm := fun st : ArmState => withArm { ArmRec.initial with state := st } line
    Taking base ∧ (base.live.arm 0).state = .off ∧ base.live.power.shedSet[(0 : Arm)] = false ∧ Taking shed ∧
      (shed.live.arm 0).state = .off ∧ shed.live.power.shedSet[(0 : Arm)] = true ∧ Taking line ∧
      (line.live.arm 0).state = .running ∧ (line.live.arm 0).discovery = none ∧ (line.live.arm 0).work = .none ∧
      Taking walking ∧ (walking.live.arm 0).state = .running ∧ (walking.live.arm 0).discovery ≠ none ∧
      (∀ st, Taking (arm st)) ∧ ((arm .stopping).live.arm 0).state = .stopping ∧ ((arm .failed).live.arm 0).state = .failed := by
  refine ⟨base_taking, rfl, rfl, ⟨⟨rfl, rfl⟩, by decide⟩, rfl, rfl, line_taking, rfl, rfl, rfl, ⟨⟨rfl, rfl⟩, by decide⟩, rfl,
    by decide, fun st => ⟨⟨rfl, rfl⟩, ?_⟩, rfl, rfl⟩
  show PowerState.run ≠ PowerState.off
  decide

theorem witness_ArmOffStopsTheArm :
    let arm := fun st : ArmState => withArm { ArmRec.initial with state := st } line
    let s : State :=
      { withLive (fun L => { L with power := { L.power with service := true } }) (arm .service) with
        setup := { line.setup with arms := Vector.replicate 4 { coldArmConfig with service := true } } }
    Taking line ∧ (line.live.arm 0).state = .running ∧ (∀ st, ((arm st).live.arm 0).state = st) ∧ Taking (arm .service) ∧
      ((arm .service).live.power.service && ((arm .service).setup.arms[(0 : Arm)]).service) = false ∧ Taking s ∧
      (s.live.arm 0).state = .service ∧ (s.live.power.service && (s.setup.arms[(0 : Arm)]).service) = true := by
  refine ⟨line_taking, rfl, fun st => rfl, ⟨⟨rfl, rfl⟩, ?_⟩, rfl, ⟨⟨rfl, rfl⟩, ?_⟩, rfl, rfl⟩ <;> decide

theorem witness_RootSenseEndsTheStop :
    let stopping := fun w : Bool => withArm { ArmRec.initial with state := .stopping, stopWaits := w } line
    (∀ w, Working (stopping w) ∧ ((stopping w).live.arm 0).state = .stopping ∧ ((stopping w).live.arm 0).stopWaits = w) ∧
      (stopping false).live.power.waiting = false ∧ (line.live.arm 0).state ≠ .stopping ∧
      (line.live.arm 0).work ≠ .diagnoseRoot ∧ (line.live.arm 0).work ≠ .locateRoot :=
  ⟨fun w => ⟨⟨rfl, rfl⟩, rfl, rfl⟩, rfl, by decide, by decide, by decide⟩

theorem witness_SlotExpiryProbesThePosition :
    let s := withArm { runningArm with state := .starting, work := .waitSlot 16, discovery := some .full } line
    let t := withLive (fun L => { L with links := L.links.set 14 { LinkRec.initial with switch := .closed } }) s
    Working line ∧ (∀ n, (line.live.arm 0).work ≠ .waitSlot n) ∧ Working t ∧ 1 ≤ 16 ∧ 16 ≤ 16 ∧
      (t.live.arm 0).work = .waitSlot 16 ∧ (t.live.dock (posAt 0 16)).inRotation = false ∧
      (t.live.link (posAt 0 (16 - 1))).switch = .closed ∧ (t.live.arm 0).state.active = true ∧
      (t.live.arm 0).txn = none ∧ (t.live.arm 0).repower = [] := by
  refine ⟨⟨rfl, rfl⟩, fun n h => ?_, ⟨rfl, rfl⟩, ?_⟩
  · have e : (line.live.arm 0).work = .none := rfl
    rw [e] at h; cases h
  · decide +kernel

theorem witness_IdentifyAnswerMakesReady :
    let p := busy (.probe 16) (.probe 16 0)
    let r := busy (.recovery 1) .none
    Working p ∧ (p.live.arm 0).state.active = true ∧ (p.live.arm 0).txn = some (.probe 16) ∧ Working r ∧
      (r.live.arm 0).state.active = true ∧ (r.live.arm 0).txn = some (.recovery 1) ∧ Working line ∧
      (line.live.arm 0).txn = none := ⟨⟨rfl, rfl⟩, rfl, rfl, ⟨rfl, rfl⟩, rfl, rfl, ⟨rfl, rfl⟩, rfl⟩

theorem witness_PassPowerAnswerSetsTheSwitch :
    let s := busy (.passPower 1) (.feed 2)
    Working s ∧ (s.live.arm 0).state.active = true ∧ (s.live.arm 0).txn = some (.passPower 1) ∧
      (s.live.arm 0).work = .feed (1 + 1) ∧ (line.live.arm 0).txn = none := ⟨⟨rfl, rfl⟩, rfl, rfl, rfl, rfl⟩

theorem witness_SwitchReportDecidesTheDiagnosis :
    let s := busy (.report 15) (.diagnose 16)
    Working s ∧ 15 ≤ 15 ∧ (s.live.arm 0).state.active = true ∧ (s.live.arm 0).txn = some (.report 15) ∧
      (s.live.arm 0).work = .diagnose (15 + 1) ∧ (line.live.arm 0).txn = none :=
  ⟨⟨rfl, rfl⟩, by decide, rfl, rfl, rfl, rfl⟩

theorem witness_OpenSwitchAnswerEndsOrMovesTheIsolation :
    let s := fun t : Nat => busy (.openSwitch t) (.isolate t true)
    (∀ t, Working (s t) ∧ ((s t).live.arm 0).state.active = true ∧ ((s t).live.arm 0).txn = some (.openSwitch t) ∧
      ((s t).live.arm 0).work = .isolate t true) ∧
      nearestBelow (s 16).live 0 16 = 2 ∧ nearestBelow (s 1).live 0 1 = 0 ∧ (line.live.arm 0).txn = none :=
  ⟨fun _ => ⟨⟨rfl, rfl⟩, rfl, rfl, rfl⟩, by decide +kernel, by decide +kernel, rfl⟩

/-- A LAMP in progress to A01. -/
def lampSent : SentCommand := { entry := { pos := 0, command := .lamp .dim, issuer := .dockTable }, number := 3 }

theorem witness_AnswerTimeoutCountsAMiss :
    let s := busy (.poll 1 none none none) .none
    let c := busy (.command lampSent) .none
    Working s ∧ (s.live.arm 0).state.active = true ∧ (s.live.arm 0).txn = some (.poll 1 none none none) ∧
      (s.live.dock (posAt 0 1)).inRotation = true ∧ (s.live.link (posAt 0 1)).misses + 1 < 3 ∧ Working c ∧
      armOf lampSent.entry.pos = 0 ∧ (c.live.arm 0).txn = some (.command lampSent) ∧
      (c.live.link lampSent.entry.pos).misses + 1 < 3 ∧ (line.live.arm 0).txn = none ∧
      (line.live.arm 0).state.active = true := by
  refine ⟨⟨rfl, rfl⟩, rfl, rfl, ?_, ?_, ⟨rfl, rfl⟩, ?_, rfl, ?_, rfl, rfl⟩ <;> decide +kernel

theorem witness_IdentifyAndRecoveryTimers :
    let p := busy (.probe 2) (.probe 2 1)
    let waitingLoss := withLive
      (fun L => { L with docks := L.docks.set 0 { heldDock with link := .lost }
                         links := L.links.set 0 { LinkRec.initial with recovery := .running } })
      (busy (.recovery 1) .none)
    Working p ∧ (p.live.arm 0).state.active = true ∧ (p.live.arm 0).txn = some (.probe 2) ∧
      (p.live.arm 0).work = .probe 2 1 ∧ 1 + 1 < 3 ∧ (p.live.arm 0).repower = [] ∧ Working waitingLoss ∧
      (waitingLoss.live.arm 0).txn = some (.recovery 1) ∧ (waitingLoss.live.dock (posAt 0 1)).link = .lost ∧
      (waitingLoss.live.link 0).recovery = .running ∧ (waitingLoss.live.arm (armOf 0)).txn ≠ none ∧
      (line.live.arm 0).txn = none ∧ ¬((line.live.dock 0).link = .lost ∧ (line.live.link 0).recovery = .running) := by
  refine ⟨⟨rfl, rfl⟩, rfl, rfl, rfl, by decide, rfl, ⟨rfl, rfl⟩, rfl, ?_, ?_, ?_, rfl, ?_⟩ <;> decide +kernel

theorem witness_PollAnswerResetsTheMisses :
    let s := busy (.poll 2 none none none) .none
    Working s ∧ 1 ≤ 2 ∧ 2 ≤ 16 ∧ (s.live.arm 0).state.active = true ∧ (s.live.arm 0).txn = some (.poll 2 none none none) ∧
      Working line ∧ (line.live.arm 0).txn = none :=
  ⟨⟨rfl, rfl⟩, by decide, by decide, rfl, rfl, ⟨rfl, rfl⟩, rfl⟩

/-- A rider's release at A01, its UNLATCH in progress. -/
def unlatchSent : SentCommand :=
  { entry := { pos := 0, command := .unlatch (some (stampOf 1 1000)) 30, issuer := .hireEngine }, number := 4 }
def releaseAt0 : Release := { pos := 0, stamp := stampOf 1 1000, remote := false, bike := 5, kind := .pedal }
def unlatching : State :=
  withLive
    (fun L => { L with releases := [releaseAt0], docks := L.docks.set 0 { heldDock with latch := some .unlatching }
                       journal := { L.journal with claims := 1 } })
    (busy (.command unlatchSent) .none)

theorem witness_CommandAnswersReachTheDock :
    let c := busy (.command lampSent) .none
    Working c ∧ (c.live.arm 0).state.active = true ∧ (c.live.arm 0).txn = some (.command lampSent) ∧
      lampSent.entry.command = .lamp .dim ∧ answers lampSent.entry.command .jammed = false ∧ Working unlatching ∧
      (unlatching.live.arm 0).state.active = true ∧ (unlatching.live.arm 0).txn = some (.command unlatchSent) ∧
      findRelease unlatching.live unlatchSent.entry.pos = some releaseAt0 ∧
      (unlatching.live.dock unlatchSent.entry.pos).link = .ready := by
  refine ⟨⟨rfl, rfl⟩, rfl, rfl, rfl, ?_, ⟨rfl, rfl⟩, rfl, rfl, ?_, ?_⟩ <;> decide +kernel

theorem witness_HandOutTouchesOnlyTheLines :
    (base.live.arm 0).state.active = false ∧ ((busy (.probe 2) .none).live.arm 0).txn ≠ none := by decide +kernel

/-- CARD PUT of a member. -/
def putOf (id plan allowance : Nat) (role : Role) : CardPut :=
  { card := BitVec.ofNat 64 id, role := role, plan := plan, allowance := allowance, status := .good, expiry := some 2000
    outCount := none, holdIssued := some 2000, holdRemaining := none }

/-- The list with pass 2 in several conditions. -/
def withCards (cs : List CardRec) : State := withLive (fun L => { L with cards := cs }) line
def closingPass : CardRec := { pass 2 with closure := some { reason := .expired, asked := { minute := 1000, unset := false } } }

theorem witness_CardPutAndDropChangeOneCard_put :
    let f := putOf 9 7 4 .pass
    Taking line ∧ (f.plan ≤ 7 ∧ 1 ≤ f.allowance ∧ f.allowance ≤ 4 ∧
        (f.role = .pass → f.expiry ≠ none ∧ f.holdIssued ≠ none)) ∧
      ¬ ((putOf 9 8 4 .member).plan ≤ 7) ∧ ¬(findCard line.live.cards f.card = none ∧ 4096 ≤ line.live.cards.length) ∧
      (∀ q, findQuery line.live f.card = some q → (line.live.dock q.pos).link ≠ .ready) ∧
      findCard (withCards [closingPass]).live.cards 2 = some closingPass ∧ closingPass.closure ≠ none ∧
      (let full := withCards (List.replicate 4096 (member 1))
       Taking full ∧ findCard full.live.cards 9 = none ∧ 4096 ≤ full.live.cards.length) := by
  refine ⟨line_taking, ?_, ?_, ?_, fun q h => ?_, ?_, ?_, ⟨⟨rfl, rfl⟩, by decide⟩, ?_, ?_⟩
  on_goal 4 => exact absurd h (by rw [show findQuery line.live _ = none from rfl]; exact fun e => by cases e)
  all_goals decide +kernel

theorem witness_CardPutAndDropChangeOneCard_drop :
    findCard line.live.cards 9 = none ∧ findCard line.live.cards 1 = some (member 1) ∧ (member 1).outCount = 0 ∧
      (member 1).closure = none ∧ (member 1).role ≠ .pass ∧ findCard line.live.cards 2 = some (pass 2) ∧
      (pass 2).outCount = 0 ∧ (pass 2).closure = none ∧ (pass 2).role = .pass ∧ endRoom line.live = true ∧
      endRoom (withLive (fun L => { L with journal := { L.journal with claims := 512 } }) line).live = false ∧
      (closingPass.outCount = 0 ∧ closingPass.closure ≠ none) ∧
      (let out := withCards [{ member 1 with outCount := 1 }]
       Taking out ∧ findCard out.live.cards 1 = some { member 1 with outCount := 1 }) := by
  refine ⟨?_, ?_, ?_, ?_, ?_, ?_, ?_, ?_, ?_, ?_, ?_, ?_, ⟨⟨rfl, rfl⟩, ?_⟩, ?_⟩ <;> decide +kernel

/-- A query of card 9 tapped at A01. -/
def query9 : QueryRec := { card := 9, pos := 0, minute := 1000, second := 0, secondsLeft := 3 }
def queried : State := withLive (fun L => { L with queries := [query9] }) line

theorem witness_MessagesArePlacedAtDocks :
    Taking queried ∧ Working queried ∧ 17 < 18 ∧ findQuery queried.live 8 = none ∧
      findQuery queried.live 9 = some query9 ∧ (queried.live.dock 0).link = .ready ∧ (queried.live.dock 2).link ≠ .ready := by
  refine ⟨⟨⟨rfl, rfl⟩, ?_⟩, ⟨rfl, rfl⟩, ?_, ?_, ?_, ?_, ?_⟩ <;> decide +kernel

/-- A release at A01 that became UNCERTAIN; a crew action in its place. -/
def uncertain : State :=
  withLive (fun L => { L with docks := L.docks.set 0 { heldDock with latch := some .uncertain, link := .lost } }) unlatching
def crewAct : CrewAction := { pos := 0, purpose := .pickup, bike := some 5, card := 1, counted := false }
def crewUncertain : State := withLive (fun L => { L with releases := [], crew := [crewAct] }) uncertain
def entryOf (n : Nat) : ClosingRec :=
  { bike := BitVec.ofNat 32 n, start := 900, close := some 950, tries := 0, state := .away, retry := none }
def withClosing (es : List ClosingRec) : State := withLive (fun L => { L with closing := es }) line

theorem witness_DockResolveSettlesThePosition :
    Taking line ∧ 64 ≤ 64 ∧ (line.live.dock 0).latch ≠ some .uncertain ∧ Taking uncertain ∧
      (uncertain.live.dock 0).latch = some .uncertain ∧ findRelease uncertain.live 0 = some releaseAt0 ∧
      firstWriter uncertain.live = none ∧ applying uncertain.setup 0 = none ∧ Taking crewUncertain ∧
      (crewUncertain.live.dock 0).latch = some .uncertain ∧ findRelease crewUncertain.live 0 = none ∧
      findCrew crewUncertain.live 0 = some crewAct ∧
      (line.live.closing.find? fun e => e.bike = (8 : BikeId)) = none ∧
      ((withClosing [entryOf 8]).live.closing.find? fun e => e.bike = (8 : BikeId)) = some (entryOf 8) ∧
      (∀ (q : Pos), ((withClosing [entryOf 8]).live.dock q).slot = none) ∧
      ((withClosing [entryOf 5]).live.dock 0).snapshot = some (.read (bike 5)) ∧ (bike 5).bike = 5 := by
  refine ⟨line_taking, ?_, ?_, ⟨⟨rfl, rfl⟩, ?_⟩, ?_, ?_, ?_, ?_, ⟨⟨rfl, rfl⟩, ?_⟩, ?_, ?_, ?_, ?_, ?_, ?_, ?_, ?_⟩ <;>
    decide +kernel

theorem witness_DockResolveSettlesThePosition_gone :
    ¬ ∃ (q : Pos) (t : Tag), ((withClosing [entryOf 8]).live.dock q).snapshot = some (.read t) ∧ t.bike = 8 := by
  rintro ⟨q, t, h, e⟩
  have k : ∀ q : Pos, ((withClosing [entryOf 8]).live.dock q).snapshot = none ∨
      ((withClosing [entryOf 8]).live.dock q).snapshot = some (.read (bike 5)) := by decide +kernel
  rcases k q with n | y
  · rw [n] at h; cases h
  · rw [y] at h
    cases h
    exact absurd e (by decide)

theorem witness_DockResolveSettlesThePosition_vacate :
    let configured : State := { line with setup := { line.setup with arms := Vector.replicate 4 { coldArmConfig with expected := 16 } } }
    numOf 63 ≤ (configured.setup.arms[armOf 63]).expected ∧ (line.setup.arms[armOf 0]).expected < numOf 0 ∧
      (line.live.dock 0).inRotation = true ∧ (line.live.dock 2).inRotation = false ∧ findRelease line.live 2 = none ∧
      findCrew line.live 2 = none ∧ (uncertain.live.dock 0).inRotation = false ∧ findRelease uncertain.live 0 ≠ none := by
  decide +kernel

theorem witness_RemoteReleaseStartsARelease :
    let stamped := withDock { heldDock with snapshot := some (.read { bike 5 with stamp := .closed (stampOf 3 999) 999 }) } line
    let full := withLive (fun L => { L with remotes := List.replicate 8 { tag := 1, pos := 0, card := 1, accepted := 0, ended := none } }) line
    64 ≤ 64 ∧ ¬((line.live.dock 2).kind = some .dock ∧ (line.live.dock 2).link = .ready) ∧ Taking full ∧
      8 ≤ full.live.remotes.length ∧ Taking quiet ∧ Taking held ∧ held.live.power.state ≠ .run ∧ Taking stamped ∧
      (stamped.live.dock 0).kind = some .dock ∧ (stamped.live.dock 0).link = .ready ∧ stamped.live.remotes.length < 8 ∧
      stamped.live.clock.valid = true ∧ hireable stamped.live 0 = true ∧
      (stamped.live.dock 0).snapshot = some (.read { bike 5 with stamp := .closed (stampOf 3 999) 999 }) ∧
      (stampOf 3 999).start < stamped.live.clock.minute ∧ findCard stamped.live.cards 2 = some (pass 2) ∧
      (pass 2).expired stamped.live.clock.minute = false ∧ (pass 2).outCount < (pass 2).allowance ∧
      (pass 2).closure = none ∧ (stamped.setup.current.plan (pass 2).plan).M ≤ (pass 2).holdRemaining ∧
      33 ≤ stamped.live.journal.room ∧ (stamped.live.arm (armOf 0)).queue.length < 16 := by
  refine ⟨?_, ?_, ⟨⟨rfl, rfl⟩, ?_⟩, ?_, ⟨⟨rfl, rfl⟩, ?_⟩, ⟨⟨rfl, rfl⟩, ?_⟩, ?_, ⟨⟨rfl, rfl⟩, ?_⟩, ?_⟩ <;> decide +kernel

/-- The tariff of section 5.6 under plan 2. -/
def plan2 : PlanFields := { F := 30, B := 30, P := 150, E := 100, C := 2400, K := 100, W := 10, M := 500 }
def priced : Setup :=
  { Setup.cold with current := { revision := 7, plans := Vector.replicate 8 plan2 } }
def hire : Stamp := { stampOf 1 490 with revision := 7 }

theorem witness_FareFollowsItsStages : 1 ≤ (priced.current.plans[hire.plan]).B ∧ (priced.current.plans[hire.plan]).F ≤ 240 := by
  decide +kernel

/-- A slot whose window runs, for the bike at A01. -/
def slotOf (w : WindowState) : Slot :=
  { bike := 5, kind := .pedal, stamp := hire, endMinute := some 647, fill := .balanced, fare := none, flags := FareFlags.none
    window := w, secondsLeft := 0, settlement := none, reserved := false, asked := none }
def settling : State :=
  withDock { heldDock with slot := some (slotOf .running), snapshot := some (.read { bike 5 with stamp := .opened hire }) } line

theorem witness_WindowExpirySettlesTheSlot :
    Working off ∧ off.live.power.state = .off ∧ Working line ∧ line.live.power.state ≠ .off ∧
      (line.live.dock 0).slot = none ∧ Working settling ∧ settling.live.power.state ≠ .off ∧
      (settling.live.dock 0).slot = some (slotOf .running) ∧ closingFree settling.live = true ∧
      endRoom settling.live = true ∧ (settling.live.dock 0).holdsStamp 5 490 = true ∧
      (let full := withLive (fun L => { L with closing := List.replicate 64 (entryOf 9) }) settling
       Working full ∧ closingFree full.live = false) ∧
      (let low := withLive (fun L => { L with journal := { L.journal with claims := 512 } }) settling
       Working low ∧ closingFree low.live = true ∧ low.live.journal.room = 0) := by
  refine ⟨⟨rfl, rfl⟩, rfl, ⟨rfl, rfl⟩, ?_, ?_, ⟨rfl, rfl⟩, ?_, ?_, ?_, ?_, ?_, ⟨⟨rfl, rfl⟩, ?_⟩, ⟨⟨rfl, rfl⟩, ?_⟩⟩ <;>
    decide +kernel

theorem witness_JournalReleaseRemovesConfirmedRecords :
    Taking line ∧ line.live.journal.lastIssued < 1 ∧ 0 ≤ line.live.journal.lastIssued ∧ firstWriter line.live = none :=
  ⟨line_taking, by decide, by decide, by decide +kernel⟩

theorem witness_VanOpenPlacesTheWorkOrder :
    let crewCard : CardRec := { member 3 with role := .crew }
    let s := withCards [crewCard]
    let low := withLive (fun L => { L with journal := { L.journal with claims := 480 } }) s
    Taking visiting ∧ visiting.live.visit.state = .opened ∧ Taking held ∧ held.live.visit.state = .none ∧
      held.live.power.state ≠ .run ∧ held.live.power.state ≠ .quiet ∧ Taking line ∧ line.live.visit.state = .none ∧
      line.live.power.state = .run ∧ line.live.clock.valid = true ∧ findCard line.live.cards 3 = none ∧ Taking s ∧
      findCard s.live.cards 3 = some crewCard ∧ crewCard.expired s.live.clock.minute = false ∧
      33 ≤ s.live.journal.room ∧ Taking low ∧ low.live.journal.room < 33 := by
  refine ⟨⟨⟨rfl, rfl⟩, ?_⟩, ?_, ⟨⟨rfl, rfl⟩, ?_⟩, ?_, ?_, ?_, line_taking, ?_, ?_, ?_, ?_, ⟨⟨rfl, rfl⟩, ?_⟩, ?_, ?_, ?_,
    ⟨⟨rfl, rfl⟩, ?_⟩, ?_⟩ <;> decide +kernel

theorem witness_VanVisitCloses :
    Taking line ∧ ¬(line.live.visit.state = .opened ∨ line.live.visit.state = .working) ∧ Taking visiting ∧
      Working visiting ∧ visiting.live.visit.state = .opened ∧ visiting.live.power.state = .run ∧
      visiting.live.visit.data = some visitData := by
  refine ⟨line_taking, ?_, ⟨⟨rfl, rfl⟩, ?_⟩, ⟨rfl, rfl⟩, rfl, rfl, rfl⟩ <;> decide

/-- A fault record about A01. -/
def faultOf (barring : Bool) (pending : JournalPending) : FaultRec :=
  { number := 41, kind := .dockReported, subject := .position 0, state := .opened, opening := { minute := 370, unset := false }
    lastSeen := 370, repeats := 1, reports := [370], barring := barring, detail := .none, pending := pending
    clearing := none, barringAtOpening := barring }
def faulty (barring : Bool) (pending : JournalPending) : State :=
  withLive (fun L => { L with faults := [faultOf barring pending] }) line

theorem witness_FaultAckAndClearActOnOneRecord :
    let found := fun (s : State) (n : Nat) => s.live.faults.find? fun f => decide (f.number = n) && decide (f.state ≠ .cleared)
    (∀ b p, Taking (faulty b p)) ∧ found (faulty true .none) 40 = none ∧
      found (faulty true .none) 41 = some (faultOf true .none) ∧ (faultOf true .none).barring = true ∧
      found (faulty false .none) 41 = some (faultOf false .none) ∧ (faultOf false .none).barring = false ∧
      ((faultOf false .none).pending = .none ∧ endRoom (faulty false .none).live = true) ∧
      found (faulty false .opened) 41 = some (faultOf false .opened) ∧
      ¬((faultOf false .opened).pending = .none ∧ endRoom (faulty false .opened).live = true) := by
  refine ⟨fun b p => ⟨⟨rfl, rfl⟩, ?_⟩, ?_⟩
  · show PowerState.run ≠ PowerState.off
    decide
  · decide +kernel

/-! ## The hypotheses of the wider clauses -/

/-- Arm A polls its position k. -/
abbrev PollsA (k : Nat) (s : State) : Prop :=
  s.live.powered = true ∧ s.live.boot = none ∧ (s.live.arm 0).state.active = true ∧ 1 ≤ k ∧ k ≤ 16 ∧
    (s.live.dock (posAt 0 k)).link = .ready ∧ (s.live.arm 0).txn = some (.poll k none none none)

theorem pollsA_polling {k : Nat} {s : State} (h : PollsA k s) : Polling 0 k s :=
  ⟨⟨h.1, h.2.1⟩, h.2.2.1, h.2.2.2.1, h.2.2.2.2.1, h.2.2.2.2.2.1, none, none, none, h.2.2.2.2.2.2⟩

/-- The fault list has room for n more records, and nothing waits for the journal. -/
abbrev Roomy (n : Nat) (s : State) : Prop := s.live.faults.length + n ≤ 95 ∧ firstWriter s.live = none

theorem roomy_faultRoom {n : Nat} {s : State} (h : Roomy n s) : FaultRoom n s.live := h

/-- Arm A polls A01, whose record is d; the cards of the list. -/
def polled (d : DockRec) (cs : List CardRec := [member 1, pass 2]) : State :=
  withLive (fun L => { L with cards := cs }) (withDock d (busy (.poll 1 none none none) .none))

/-- The journal with no unclaimed room. -/
def claimed (n : Nat) (s : State) : State := withLive (fun L => { L with journal := { L.journal with claims := n } }) s

/-- Sixteen commands in the queue of arm A. -/
def queueFull (s : State) : State :=
  withArm { s.live.arm 0 with queue := List.replicate 16 lampSent.entry } s

def openBike : Tag := { bike 5 with stamp := .opened hire }
def markedBike : Tag := { bike 5 with mark := some { minute := 900, station := 7 } }
def kioskRec : DockRec := { DockRec.cold with kind := some .kiosk, serial := some 3, link := .ready, lastResting := some .ready }
def crewCard : CardRec := { member 3 with role := .crew }

/-- A record of the largest body. -/
def bigRecord (n : Nat) : JournalRec :=
  { seq := n, at_ := { minute := 1000, unset := false }, subject := .bike 5
    body := .hireEnd
      { slotOf .running with
        fare := some { gross := 5, credit := 1, net := 4, duration := 9, revision := 7 }
        settlement := some { kind := .hold, charged := 4, shortfall := 0, finalNet := 4 } } 0 }

theorem witness_JournalReadFitsAFrame_left_out :
    let L := { line.live with journal := { line.live.journal with ring := (List.range 8).map bigRecord } }
    (recordsFrom 0 8 L).length < 8 ∧ ((L.journal.ring.filter fun r => 0 ≤ r.seq)[(recordsFrom 0 8 L).length]?).isSome = true ∧
      (L.journal.ring.filter fun r => 0 ≤ r.seq) ≠ [] := by decide +kernel

/-- The journal with its last number issued. -/
def numbered (n : Nat) (L : Live) : Live := { L with journal := { L.journal with lastIssued := n } }

theorem witness_ClearAttentionRemovesMatchingKinds_conditions :
    State.reset.live.boot ≠ none ∧ line.live.boot = none ∧ line.live.powered = true ∧
      conditions (numbered 4294967232 { line.live with queries := [query9], clock := { line.live.clock with valid := false } }) =
        [true, true, true] ∧
      conditions (numbered 4294967231 line.live) = [false, false, false] := by decide +kernel

theorem witness_FrameBodiesNameTheirRows_lists :
    let items : List ClearItem := [{ kind := 8, count := 255 }, { kind := 9, count := 0 }, { kind := 255, count := 0 }]
    items.length < 256 ∧
      (∀ i ∈ items, (i.kind < 9 ∧ fits1 i.count = true) ∨ (9 ≤ i.kind ∧ fits1 i.kind = true ∧ i.count = 0)) ∧
      ({ putOf 9 255 255 .crew with outCount := some 255, expiry := none, holdRemaining := some 4294967295 } : CardPut).wf = true := by
  decide +kernel

theorem witness_PresetsAndCountersAreSet_due :
    let g : Setup := { base.setup with presetIndex := base.setup.presetIndex.set 0 1 }
    let s : State := { withLive (fun L => { L with counters := L.counters.set 0 5 }) base with setup := g }
    let u : State := { s with setup := { base.setup with presets := base.setup.presets.set 0 (some 5) } }
    Taking s ∧ s.setup.presets[(0 : Fin 4)] ≠ some 5 ∧ Roomy 64 s ∧ (s.setup.presetIndex[(0 : Pos)]).val = 0 + 1 ∧
      5 ≤ s.live.counter 0 ∧ Taking u ∧ Roomy 1 u ∧
      applying { u.setup with presetIndex := u.setup.presetIndex.set 0 1 } 0 = some 5 ∧ applying u.setup 0 ≠ some 5 ∧
      5 ≤ u.live.counter 0 := by
  refine ⟨⟨⟨rfl, rfl⟩, by decide⟩, ?_, ?_, ?_, ?_, ⟨⟨rfl, rfl⟩, by decide⟩, ?_⟩ <;> decide +kernel

theorem witness_ClockTickCountsASecond_minute :
    let at_ := fun (m sec : Nat) => withLive (fun L => { L with clock := { minute := m, second := sec, valid := true } }) line
    let last := at_ 1999 59
    let top := at_ 4294967295 59
    let kept := withPower .holdover visiting
    Working last ∧ last.live.clock.second = 59 ∧ last.live.clock.minute < 4294967295 ∧ last.live.power.state ≠ .off ∧
      last.live.clock.valid = true ∧ findCard last.live.cards 2 = some (pass 2) ∧ (pass 2).role = .pass ∧
      (pass 2).expiry = some 2000 ∧ 2000 ≤ last.live.clock.minute + 1 ∧ (pass 2).outCount = 0 ∧ (pass 2).closure = none ∧
      (∀ p : Pos, (last.live.dock p).slot = none) ∧ Working top ∧ ¬ top.live.clock.second < 59 ∧
      ¬ top.live.clock.minute < 4294967295 ∧ Working kept ∧ kept.live.visit.state = .opened ∧
      kept.live.power.state = .holdover ∧ kept.live.clock.second < 59 := by
  refine ⟨⟨rfl, rfl⟩, ?_, ?_, ?_, ?_, ?_, ?_, ?_, ?_, ?_, ?_, ?_, ⟨rfl, rfl⟩, ?_, ?_, ⟨rfl, rfl⟩, ?_⟩ <;> decide +kernel

/-- A new minute out of OFF and in it, with a valid clock and without one, for the timers. -/
theorem witness_ClockTickCountsASecond_timers :
    let last := fun (p : PowerState) (v : Bool) =>
      withLive (fun L => { L with clock := { minute := 1999, second := 59, valid := v } }) (withPower p visiting)
    ∀ p v, Working (last p v) ∧ (last p v).live.power.state = p ∧ (last p v).live.clock = { minute := 1999, second := 59, valid := v } ∧
      (last p v).live.visit.state = .opened := fun _ _ => ⟨⟨rfl, rfl⟩, rfl, rfl, rfl⟩

theorem witness_SequenceStepTakesTheNextStep_skips :
    let s := withLive (fun L => { L with power := { L.power with sequence := [(.start, 0), (.stop, 1)], waiting := false } }) line
    let u := sequenced .start false line
    Working s ∧ s.live.power.sequence = [(.start, 0)] ++ (.stop, 1) :: [] ∧ (s.live.arm 0).state ≠ .off ∧
      (s.live.arm 0).state ≠ .stopping ∧ (s.live.arm 1).state.active = true ∧ Working u ∧ u.live.power.waiting = false ∧
      u.live.power.sequence = [(.start, 0)] ∧ (u.live.arm 0).state = .running := by
  refine ⟨⟨rfl, rfl⟩, ?_, ?_, ?_, ?_, ⟨rfl, rfl⟩, ?_⟩ <;> decide +kernel

/-- A start-up that waits for its lines, with a slot at A01 and moves at A02. -/
def starting (slot : Option Slot) (moves : List Move) : State :=
  withLive
    (fun L => { L with docks := (L.docks.set 0 { DockRec.cold with slot := slot }).set 1 { DockRec.cold with moves := moves } })
    State.reset
def moveOf : Move := { reason := .unexplained, bike := none, at_ := { minute := 900, unset := false }, merged := 0 }

theorem witness_StartupLinesChooseThePowerState_tables :
    let visit := withLive (fun L => { L with visit := { state := .working, data := some visitData } }) State.reset
    let runs := starting (some (slotOf .reported)) []
    let waits := starting (some { slotOf .deferredJournal with asked := some moveOf.at_ }) [moveOf]
    let moves := starting none [moveOf]
    let tables := fun s : State => s.live.powered = true ∧ s.live.boot = some .cold ∧ s.live.releases = [] ∧
      s.live.crew = [] ∧ (∀ a : Arm, s.live.arm a = ArmRec.initial) ∧
      ∀ p : Pos, s.live.dock p = { DockRec.cold with slot := (s.live.dock p).slot, moves := (s.live.dock p).moves }
    tables visit ∧ visit.live.visit.state = .working ∧ visit.live.visit.data = some visitData ∧ tables runs ∧
      runs.live.visit.state = .none ∧ (runs.live.dock 0).slot = some (slotOf .reported) ∧ endRoom runs.live = true ∧
      closingFree runs.live = true ∧ tables waits ∧ firstWriter waits.live = some (.slot 0) ∧ 0 < waits.live.journal.room ∧
      tables moves ∧ firstWriter moves.live = some (.move 1) ∧ (moves.live.dock 1).moves = [moveOf] ∧
      0 < moves.live.journal.room := by decide +kernel

theorem witness_RootSenseEndsTheStop_waiting_and_roots :
    let stop := sequenced .start true (withArm { ArmRec.initial with state := .stopping } line)
    let root := fun w : Work => withArm { runningArm with work := w } line
    Working stop ∧ (stop.live.arm 0).state = .stopping ∧ (stop.live.arm 0).stopWaits = false ∧
      stop.live.power.waiting = true ∧ stop.live.power.sequence = (.start, 0) :: [] ∧
      Working (root .diagnoseRoot) ∧ Working (root .locateRoot) ∧ ((root .diagnoseRoot).live.arm 0).state ≠ .stopping ∧
      ((root .diagnoseRoot).live.arm 0).work = .diagnoseRoot ∧ ((root .locateRoot).live.arm 0).work = .locateRoot ∧
      ((root .locateRoot).live.arm 0).state.active = true ∧ ((root .locateRoot).live.arm 0).txn = none ∧
      ((root .locateRoot).live.arm 0).repower = [] ∧ Roomy 1 (root .diagnoseRoot) ∧ Roomy 1 (root .locateRoot) := by
  refine ⟨⟨rfl, rfl⟩, rfl, rfl, rfl, rfl, ⟨rfl, rfl⟩, ⟨rfl, rfl⟩, ?_⟩
  decide +kernel

theorem witness_SwitchReportDecidesTheDiagnosis_locate :
    let s := busy (.report 15) (.locate 15)
    let one := busy (.report 1) (.locate 1)
    Working s ∧ (s.live.arm 0).state.active = true ∧ (s.live.arm 0).txn = some (.report 15) ∧
      (s.live.arm 0).work = .locate 15 ∧ Roomy 2 s ∧ nearestBelow s.live 0 15 = 2 ∧ Working one ∧
      (one.live.arm 0).txn = some (.report 1) ∧ (one.live.arm 0).work = .locate 1 ∧ nearestBelow one.live 0 1 = 0 := by
  refine ⟨⟨rfl, rfl⟩, rfl, rfl, rfl, ?_, ?_, ⟨rfl, rfl⟩, rfl, rfl, ?_⟩ <;> decide +kernel

/-- Arm A with a transaction and line work, its positions with two misses each, the latch of A01 OPEN. -/
def missing (t : Txn) (w : Work) : State :=
  withLive (fun L => { L with links := Vector.replicate 64 { LinkRec.initial with misses := 2 } })
    (withDock { heldDock with latch := some .opened } (busy t w))

theorem witness_AnswerTimeoutCountsAMiss_third :
    let s := missing (.poll 1 none none none)
    let two := missing (.poll 2 none none none)
    let answers := fun (s : State) (i : Nat) => (s.live.dock (posAt 0 i)).inRotation = true
    (∀ w ∈ [Work.none, .diagnose 2, .locateRoot, .isolate 2 true, .isolate 1 true, .locate 2, .locate 1],
      (s w).live.powered = true ∧ (s w).live.boot = none ∧ ((s w).live.arm 0).txn = some (.poll 1 none none none) ∧
        ((s w).live.arm 0).work = w ∧ answers (s w) 1 ∧ answers (s w) 2 ∧ 3 ≤ ((s w).live.link (posAt 0 1)).misses + 1 ∧
        (∀ i ∈ List.range 17, 2 < i → ¬ answers (s w) i) ∧ Roomy 1 (s w) ∧ unlatchQueued (s w).live (posAt 0 1) = false) ∧
      (∀ w ∈ [Work.none, .locate 1, .locateProbe 1 0],
        ((two w).live.arm 0).txn = some (.poll 2 none none none) ∧ answers (two w) 1 ∧ answers (two w) 2 ∧ 1 + 1 = 2) := by
  decide +kernel

theorem witness_AnswerTimeoutCountsAMiss_line_work :
    let pp := busy (.passPower 1) (.feed 2)
    let rp := busy (.report 1) (.locate 1)
    let op := busy (.openSwitch 16) (.isolate 16 true)
    Working pp ∧ (pp.live.arm 0).txn = some (.passPower 1) ∧ (pp.live.arm 0).repower = [] ∧
      (pp.live.arm 0).work = .feed (1 + 1) ∧ (pp.live.link (posAt 0 1)).misses + 1 < 3 ∧ Working rp ∧
      (rp.live.arm 0).txn = some (.report 1) ∧ (rp.live.arm 0).work = .locate 1 ∧ (rp.live.arm 0).repower = [] ∧
      Working op ∧ (op.live.arm 0).txn = some (.openSwitch 16) ∧ (op.live.arm 0).work = .isolate 16 true ∧
      nearestBelow op.live 0 16 ≠ 0 ∧ nearestBelow (busy (.openSwitch 1) (.isolate 1 true)).live 0 1 = 0 := by
  refine ⟨⟨rfl, rfl⟩, rfl, rfl, rfl, ?_, ⟨rfl, rfl⟩, rfl, rfl, rfl, ⟨rfl, rfl⟩, rfl, rfl, ?_, ?_⟩ <;> decide +kernel

theorem witness_IdentifyAndRecoveryTimers_third :
    let s := fun k : Nat => busy (.probe k) (.probe k 2)
    let alone := withLive (fun L => { L with docks := Vector.replicate 64 DockRec.cold }) (s 1)
    let loc := fun (k t : Nat) => busy (.locProbe k) (.locateProbe (k - 1) t)
    let answers := fun (s : State) (i : Nat) => (s.live.dock (posAt 0 i)).inRotation = true
    3 ≤ 2 + 1 ∧ ((s 1).live.arm 0).txn = some (.probe 1) ∧ ((s 1).live.arm 0).work = .probe 1 2 ∧ answers (s 1) 2 ∧
      ((s 1).live.dock (posAt 0 1)).known = true ∧ Roomy 1 (s 1) ∧ (∀ i ∈ List.range 17, 3 < i → ¬ answers (s 3) i) ∧
      answers (s 3) (3 - 1) ∧ ((s 3).live.arm 0).repower = [] ∧ (∀ i ∈ List.range 17, ¬ answers alone i) ∧
      (alone.live.arm 0).txn = some (.probe 1) ∧
      (∀ k ∈ [1, 2], ∀ t ∈ [1, 2], ((loc k t).live.arm 0).txn = some (.locProbe k) ∧
        ((loc k t).live.arm 0).work = .locateProbe (k - 1) t ∧ Roomy 1 (loc k t)) := by decide +kernel

theorem witness_IdentifyAndRecoveryTimers_idle :
    let s := withLive
      (fun L => { L with docks := L.docks.set 0 { heldDock with link := .lost }
                         links := L.links.set 0 { LinkRec.initial with recovery := .running } }) line
    Working s ∧ (s.live.dock 0).link = .lost ∧ (s.live.link 0).recovery = .running ∧
      (s.live.arm (armOf 0)).state.active = true ∧ (s.live.arm (armOf 0)).txn = none ∧
      (s.live.arm (armOf 0)).work = .none ∧ (s.live.arm (armOf 0)).repower = [] ∧
      (s.live.arm (armOf 0)).resend = none ∧ numOf 0 = 1 := by
  refine ⟨⟨rfl, rfl⟩, ?_⟩; decide +kernel

/-- A01 with its latch in a state, a release of card 1 or a crew action there. -/
def openLatch (l : Latch) : State := polled { heldDock with latch := some l, snapshot := some (.read openBike) }
def riding (l : Latch) : State :=
  claimed 1 (withLive (fun L => { L with releases := [{ releaseAt0 with stamp := hire, remote := true }] }) (openLatch l))
def crewing (l : Latch) : State := withLive (fun L => { L with crew := [crewAct] }) (openLatch l)

theorem witness_PollAnswerResetsTheMisses_events :
    let repeated := withLive (fun L => { L with links := L.links.set 0 { LinkRec.initial with lastAnswer := some 1 } }) (polled heldDock)
    PollsA 1 repeated ∧ (repeated.live.link (posAt 0 1)).lastAnswer = some 1 ∧ PollsA 1 (polled kioskRec) ∧
      ((polled kioskRec).live.dock (posAt 0 1)).kind = some .kiosk ∧ Roomy 1 (polled kioskRec) ∧
      PollsA 1 (polled emptyDock) ∧ ((polled emptyDock).live.dock (posAt 0 1)).latch = some .empty ∧
      PollsA 1 (polled heldDock) ∧ ((polled heldDock).live.link (posAt 0 1)).lastAnswer ≠ some 1 ∧
      ((polled heldDock).live.dock (posAt 0 1)).snapshot = some (.read (bike 5)) ∧ endRoom (polled heldDock).live = true := by decide +kernel

theorem witness_PollAnswerResetsTheMisses_in_flight :
    ∀ l ∈ [Latch.opened, .unlatching],
        PollsA 1 (riding l) ∧ ((riding l).live.dock (posAt 0 1)).latch = some l ∧
          unlatchQueued (riding l).live (posAt 0 1) = false ∧
          findRelease (riding l).live (posAt 0 1) = some { releaseAt0 with stamp := hire, remote := true } ∧
          firstWriter (riding l).live = none ∧ applying (riding l).setup (posAt 0 1) = none ∧
          openBike.bike = releaseAt0.bike ∧ openBike.stamp = .opened hire ∧ closingFree (riding l).live = true ∧
          PollsA 1 (crewing l) ∧ findRelease (crewing l).live (posAt 0 1) = none ∧
          findCrew (crewing l).live (posAt 0 1) = some crewAct ∧ endRoom (crewing l).live = true := by decide +kernel

/-- A command to A01 in progress, the latch UNLATCHING or HELD. -/
def sending (c : NodeCommand) (d : DockRec) : State :=
  withDock d (busy (.command { entry := { pos := 0, command := c, issuer := .hireEngine }, number := 5 }) .none)

theorem witness_CommandAnswersReachTheDock_others :
    let crew := withLive (fun L => { L with crew := [crewAct] }) (sending (.unlatch none 30) { heldDock with latch := some .unlatching })
    let closing := fun n : Nat => withLive
      (fun L => { L with closing := [{ bike := 5, start := 490, close := some 647, tries := n, state := .sending, retry := none }] })
      (sending (.closeStamp 5 490 (some 647)) { heldDock with snapshot := some (.read openBike) })
    let marking := sending (.markFault 5 1000 7) { heldDock with reservation := .vanPickup }
    let answering := sending (.passAnswer 2 .passOk) kioskRec
    Working unlatching ∧ findRelease unlatching.live 0 = some releaseAt0 ∧ firstWriter unlatching.live = none ∧
      Roomy 1 unlatching ∧ Working crew ∧ (crew.live.arm 0).state.active = true ∧ (crew.live.dock 0).link = .ready ∧
      findRelease crew.live 0 = none ∧ findCrew crew.live 0 ≠ none ∧ Roomy 1 crew ∧
      (∀ n ∈ [1, 2], (closing n).live.boot = none ∧ ((closing n).live.dock 0).link = .ready ∧
        ((closing n).live.dock 0).snapshot = some (.read openBike) ∧
        ((findClosing (closing n).live 5 490).map fun e => e.tries) = some n ∧ Roomy 1 (closing n) ∧
        ∀ q : Pos, ((closing n).live.dock q).slot = none) ∧
      Working marking ∧ (marking.live.dock 0).snapshot = some (.read (bike 5)) ∧ (marking.live.dock 0).reservation = .vanPickup ∧
      Working answering ∧ (answering.live.dock 0).link = .ready := by
  refine ⟨⟨rfl, rfl⟩, ?_, ?_, ?_, ⟨rfl, rfl⟩, ?_, ?_, ?_, ?_, ?_, ?_, ⟨rfl, rfl⟩, ?_, ?_, ⟨rfl, rfl⟩, ?_⟩ <;> decide +kernel

theorem witness_HandOutTouchesOnlyTheLines_order :
    let idle := fun r : ArmRec => withArm r line
    let due := withLive (fun L => { L with docks := L.docks.set 2 { emptyDock with link := .lost }
                                           links := L.links.set 2 { LinkRec.initial with recovery := .due } }) line
    ((idle { runningArm with repower := [1] }).live.arm 0).txn = none ∧
      (∀ w ∈ [Work.feed 2, .probe 2 0, .diagnose 2, .locate 1, .locateProbe 1 0, .isolate 1 true],
        ((idle { runningArm with work := w }).live.arm 0).work = w ∧ ((idle { runningArm with work := w }).live.arm 0).state.active = true) ∧
      ((idle { runningArm with resend := some lampSent }).live.arm 0).resend = some lampSent ∧
      (due.live.dock (posAt 0 3)).link = .lost ∧ (due.live.link (posAt 0 3)).recovery = .due ∧
      ((idle { runningArm with queue := [lampSent.entry] }).live.arm 0).queue = lampSent.entry :: [] ∧
      (line.live.arm 0).pollPointer = none ∧ (line.live.dock (posAt 0 1)).inRotation = true ∧
      ((idle { runningArm with pollPointer := some 1 }).live.dock (posAt 0 2)).inRotation = true ∧
      ((idle { runningArm with pollPointer := some 16 }).live.dock (posAt 0 1)).inRotation = true ∧
      (line.live.arm 1).state.active = true ∧ (∀ k ∈ List.range 17, (line.live.dock (posAt 1 k)).inRotation = false) := by
  decide +kernel

theorem witness_CardPutAndDropChangeOneCard_sources :
    Taking queried ∧ findQuery queried.live 9 = some query9 ∧ (queried.live.dock query9.pos).link = .ready ∧
      findCard queried.live.cards 9 = none ∧ findCard line.live.cards 1 = some (member 1) ∧ (member 1).role ≠ .pass ∧
      (putOf 1 7 4 .pass).role = .pass := by
  refine ⟨⟨⟨rfl, rfl⟩, ?_⟩, ?_⟩ <;> decide +kernel

theorem witness_CardPutAndDropChangeOneCard_pass_held :
    let s := polled kioskRec
    let sold := polled kioskRec [{ pass 2 with source := .kiosk 0 4 }]
    let full := polled kioskRec (List.replicate 4096 (member 1))
    let fifth := withLive (fun L => { L with docks := Vector.replicate 64 kioskRec })
      (withArm { runningArm with txn := some (.poll 5 none none none) } line)
    PollsA 1 sold ∧ findCard sold.live.cards 2 = some { pass 2 with source := .kiosk 0 4 } ∧ PollsA 1 s ∧
      (s.live.dock (posAt 0 1)).kind = some .kiosk ∧ s.live.power.state = .run ∧ s.live.clock.valid = true ∧
      33 ≤ s.live.journal.room ∧ s.live.cards.length < 4096 ∧ findCard s.live.cards 9 = none ∧ findCard s.live.cards 1 ≠ none ∧
      excess s.live (posAt 0 1) = false ∧ findQuery s.live 9 = none ∧ (s.live.arm 0).queue.length < 16 ∧
      (withPower .quiet s).live.power.state ≠ .run ∧ PollsA 1 (withPower .quiet s) ∧ PollsA 1 (claimed 480 s) ∧
      (claimed 480 s).live.journal.room < 33 ∧ PollsA 1 full ∧ 4096 ≤ full.live.cards.length ∧ findCard full.live.cards 9 = none ∧
      PollsA 5 fifth ∧ excess fifth.live (posAt 0 5) = true ∧ findCard fifth.live.cards 9 = none := by decide +kernel

theorem witness_MessagesArePlacedAtDocks_taps :
    let s := fun (c : CardRec) => polled heldDock [c]
    let d := fun (d : DockRec) => polled d
    let m := member 1
    let queries := fun n : Nat => withLive (fun L => { L with queries := List.replicate n query9 }) (polled heldDock)
    (∀ l ∈ [Latch.opened, .unlatching, .empty, .held], PollsA 1 (d { heldDock with latch := some l }) ∧
        ((d { heldDock with latch := some l }).live.dock (posAt 0 1)).latch = some l) ∧
      m.role ≠ .crew ∧ (s m).live.power.state = .run ∧ (s m).live.clock.valid = true ∧ ((s m).live.arm 0).state = .running ∧
      barred (s m).live (posAt 0 1) = false ∧ held.live.power.state = .holdover ∧
      barred (faulty true .none).live (posAt 0 1) = true ∧ (withPower .holdover (s m)).live.boot = none ∧
      ((d { heldDock with reservation := .vanPickup }).live.dock (posAt 0 1)).reservation ≠ .none ∧
      marked (d heldDock).live markedBike = true ∧ marked (d heldDock).live (bike 5) = false ∧ (settling.live.dock 0).slot ≠ none ∧
      (stampOf 3 1000).start = 1000 ∧ (s m).live.clock.minute ≤ 1000 ∧ findCard (s m).live.cards 9 = none ∧
      findQuery (queries 1).live 9 ≠ none ∧ findQuery (queries 7).live 8 = none ∧ (queries 7).live.queries.length < 8 ∧
      8 ≤ (queries 8).live.queries.length ∧
      findCard (s { m with status := .blocked }).live.cards 1 = some { m with status := .blocked } ∧
      findCard (s { m with expiry := some 1000 }).live.cards 1 = some { m with expiry := some 1000 } ∧
      findCard (s { m with outCount := 1 }).live.cards 1 = some { m with outCount := 1 } ∧
      findCard (s closingPass).live.cards 2 = some closingPass ∧
      (let p : State := { s (pass 2) with setup := { priced with current := { priced.current with plans := Vector.replicate 8 { plan2 with M := 2001 } } } }
       findCard p.live.cards 2 = some (pass 2) ∧ (pass 2).holdRemaining < (p.setup.current.plan (pass 2).plan).M) ∧
      (claimed 480 (s m)).live.journal.room < 33 ∧ PollsA 1 (queueFull (s m)) ∧ 16 ≤ ((queueFull (s m)).live.arm 0).queue.length := by
  decide +kernel

theorem witness_DockResolveSettlesThePosition_kinds :
    let at_ := fun d : DockRec => withDock d uncertain
    let kiosk := at_ { heldDock with kind := some .kiosk, latch := some .uncertain }
    let absent := at_ { heldDock with kind := none, serial := none, link := .absent, latch := some .uncertain }
    (kiosk.live.dock 0).latch = some .uncertain ∧ (kiosk.live.dock 0).kind = some .kiosk ∧ (kiosk.live.dock 0).known = true ∧
      (absent.live.dock 0).latch = some .uncertain ∧ (absent.live.dock 0).known = false ∧
      (uncertain.live.dock 0).kind = some .dock ∧ (uncertain.live.dock 0).known = true ∧ uncertain.live.counter 0 < 999999 ∧
      Taking kiosk ∧ Taking absent := by
  refine ⟨?_, ?_, ?_, ?_, ?_, ?_, ?_, ?_, ⟨⟨rfl, rfl⟩, ?_⟩, ⟨⟨rfl, rfl⟩, ?_⟩⟩ <;> decide +kernel

theorem witness_RemoteReleaseStartsARelease_tap :
    let s := polled { heldDock with snapshot := some (.read { bike 5 with stamp := .closed (stampOf 3 999) 999 }) }
    PollsA 1 s ∧ (s.live.dock (posAt 0 1)).kind = some .dock ∧ s.live.power.state = .run ∧ s.live.clock.valid = true ∧
      hireable s.live (posAt 0 1) = true ∧
      (s.live.dock (posAt 0 1)).snapshot = some (.read { bike 5 with stamp := .closed (stampOf 3 999) 999 }) ∧
      (stampOf 3 999).start < s.live.clock.minute ∧ findCard s.live.cards 2 = some (pass 2) ∧ (pass 2).role ≠ .crew ∧
      (pass 2).status = .good ∧ (pass 2).expired s.live.clock.minute = false ∧ (pass 2).outCount < (pass 2).allowance ∧
      (pass 2).closure = none ∧ (s.setup.current.plan (pass 2).plan).M ≤ (pass 2).holdRemaining ∧
      33 ≤ s.live.journal.room ∧ (s.live.arm 0).queue.length < 16 := by decide +kernel

theorem witness_WindowExpirySettlesTheSlot_waiting_or_gone :
    let waits := withLive (fun L => { L with docks := L.docks.set 1 { emptyDock with moves := [moveOf] } }) settling
    let gone := withDock { emptyDock with slot := some (slotOf .running) } line
    Working waits ∧ (waits.live.dock 0).slot = some (slotOf .running) ∧ closingFree waits.live = true ∧
      endRoom waits.live = false ∧ 0 < waits.live.journal.room ∧ Working gone ∧
      (gone.live.dock 0).slot = some (slotOf .running) ∧ (gone.live.dock 0).latch ≠ some .held ∧
      closingFree gone.live = true ∧ endRoom gone.live = true ∧ findClosing gone.live 5 490 = none ∧
      ∀ q : Pos, (gone.live.dock q).holdsStamp 5 490 = false := by
  refine ⟨⟨rfl, rfl⟩, ?_, ?_, ?_, ?_, ⟨rfl, rfl⟩, ?_⟩ <;> decide +kernel

theorem witness_WindowExpirySettlesTheSlot_arrivals :
    let s := polled emptyDock
    let visit := fun (w : VisitState) (v : VisitRec) => withLive (fun L => { L with visit := { state := w, data := some v } }) s
    let slotAt := fun (p : Pos) (x : Slot) => withLive (fun L => { L with docks := L.docks.set p { L.docks[p] with slot := some x } }) s
    let out := withLive (fun L => { L with releases := [{ releaseAt0 with pos := 1, stamp := hire }]
                                           docks := L.docks.set 1 { heldDock with latch := some .uncertain } }) s
    let closing := withLive (fun L => { L with closing := [{ entryOf 5 with start := 490 }] }) s
    PollsA 1 s ∧ (s.live.dock (posAt 0 1)).kind = some .dock ∧ (s.live.dock (posAt 0 1)).latch = some .empty ∧
      applying s.setup (posAt 0 1) = none ∧ endRoom s.live = true ∧ endRoom (claimed 512 s).live = false ∧
      (s.live.dock (posAt 0 1)).moves.length < 4 ∧ stampShut (bike 9).stamp = true ∧ s.live.visit.state ≠ .working ∧
      (visit .working visitData).live.visit.state = .working ∧ visitData.dropsDone ≤ 255 ∧
      ¬(visitData.pickupsPlanned ≤ visitData.pickupsDone ∧ visitData.dropsPlanned + 1 ≤ visitData.dropsDone + 1) ∧
      (visitData.pickupsPlanned ≤ visitData.pickupsDone ∧ visitData.dropsPlanned ≤ visitData.dropsDone + 1 ∧
        visitData.collectionsPlanned ≤ visitData.collectionsDone) ∧
      openBike.stamp = .opened hire ∧ findClosing s.live 5 490 = none ∧ allPos.any (slotHolds s.live 5 490) = false ∧
      releaseElsewhere s.live 5 490 (posAt 0 1) = none ∧ (s.live.dock (posAt 0 1)).slot = none ∧
      findClosing closing.live 5 490 = some { entryOf 5 with start := 490 } ∧ (closing.live.arm 0).queue.length < 16 ∧
      (∀ q : Pos, (closing.live.dock q).holdsStamp 5 490 = false) ∧
      allPos.any (slotHolds (slotAt 1 (slotOf .running)).live 5 490) = true ∧
      findClosing (slotAt 1 (slotOf .running)).live 5 490 = none ∧
      releaseElsewhere out.live 5 490 (posAt 0 1) = some { releaseAt0 with pos := 1, stamp := hire } ∧
      allPos.any (slotHolds out.live 5 490) = false ∧
      ((slotAt 0 { slotOf .running with bike := 8 }).live.dock (posAt 0 1)).slot ≠ none ∧
      allPos.any (slotHolds (slotAt 0 { slotOf .running with bike := 8 }).live 5 490) = false ∧
      (let x := withLive (fun L => { L with clock := { L.clock with valid := false } }) s
       PollsA 1 x ∧ x.live.clock.valid = false) := by decide +kernel

theorem witness_WindowExpirySettlesTheSlot_button :
    let s := fun w : WindowState => polled { heldDock with slot := some (slotOf w) }
    ∀ w ∈ [WindowState.running, .reported], PollsA 1 (s w) ∧ ((s w).live.dock (posAt 0 1)).kind = some .dock ∧
      ((s w).live.dock (posAt 0 1)).slot = some (slotOf w) ∧ (slotOf w).window = w ∧ Roomy 1 (s w) ∧
      ((s w).live.arm 0).queue.length < 16 := by decide +kernel

theorem witness_VanOpenPlacesTheWorkOrder_crew :
    let s := fun (d : DockRec) (c : CardRec) => polled d [c]
    let t := s heldDock crewCard
    PollsA 1 t ∧ (t.live.dock (posAt 0 1)).kind = some .dock ∧ findCard t.live.cards 3 = some crewCard ∧
      crewCard.role = .crew ∧ crewCard.status = .good ∧ crewCard.expiry = none ∧ barred t.live (posAt 0 1) = false ∧
      t.live.power.state = .run ∧ t.live.clock.valid = true ∧ (t.live.arm 0).state = .running ∧
      (t.live.dock (posAt 0 1)).latch = some .held ∧ marked t.live (bike 5) = false ∧
      (t.live.dock (posAt 0 1)).reservation ≠ .vanPickup ∧ t.live.visit.state = .none ∧ (t.live.arm 0).queue.length < 16 := by
  decide +kernel

theorem witness_VanOpenPlacesTheWorkOrder_crew_unlatches :
    let s := fun (d : DockRec) (c : CardRec) => polled d [c]
    let mine := withLive (fun L => { L with visit := { state := .opened, data := some { visitData with card := 3 } } })
      (s { heldDock with reservation := .vanPickup } crewCard)
    let marked_ := s { heldDock with snapshot := some (.read markedBike) } crewCard
    PollsA 1 mine ∧ mine.live.visit.state = .opened ∧ mine.live.visit.data = some { visitData with card := 3 } ∧
      (mine.live.dock (posAt 0 1)).reservation = .vanPickup ∧ PollsA 1 marked_ ∧
      (marked_.live.dock (posAt 0 1)).snapshot = some (.read markedBike) ∧ marked marked_.live markedBike = true ∧
      PollsA 1 (queueFull mine) ∧ 16 ≤ ((queueFull mine).live.arm 0).queue.length := by decide +kernel

theorem witness_VanOpenPlacesTheWorkOrder_crew_refusals :
    let s := fun (d : DockRec) (c : CardRec) => polled d [c]
    let t := s heldDock crewCard
    PollsA 1 (withPower .holdover t) ∧ (withPower .holdover t).live.power.state = .holdover ∧
      (let x := withArm { t.live.arm 0 with state := .service } t
       PollsA 1 x ∧ (x.live.arm 0).state ≠ .running) ∧
      (∀ l ∈ [Latch.unlatching, .opened, .empty], PollsA 1 (s { heldDock with latch := some l } crewCard)) ∧
      (s heldDock { crewCard with status := .blocked }).live.cards = [{ crewCard with status := .blocked }] ∧
      (s heldDock { crewCard with expiry := some 1000 }).live.clock.minute = 1000 := by decide +kernel

theorem witness_FaultAckAndClearActOnOneRecord_dock :
    let s := polled heldDock
    let u := polled emptyDock
    let b := withLive (fun L => { L with faults := [faultOf true .none] }) (polled heldDock [crewCard])
    PollsA 1 s ∧ (s.live.dock (posAt 0 1)).kind = some .dock ∧ (s.live.dock (posAt 0 1)).slot = none ∧
      (s.live.dock (posAt 0 1)).snapshot = some (.read (bike 5)) ∧ (bike 5).mark = none ∧ Roomy 1 s ∧
      (s.live.arm 0).queue.length < 16 ∧ PollsA 1 u ∧ (u.live.dock (posAt 0 1)).snapshot = none ∧ Roomy 1 u ∧ PollsA 1 b ∧
      findCard b.live.cards 3 = some crewCard ∧ crewCard.role = .crew ∧ barred b.live (posAt 0 1) = true ∧
      (b.live.faults.filter fun x => x.barring && x.subject = .position (posAt 0 1)) = [faultOf true .none] ∧
      (faultOf true .none).pending = .none ∧ endRoom b.live = true := by decide +kernel

/-! ## The clauses on what is given up, identified, counted and barred -/

theorem witness_BandSetTakesTheBand_restart :
    let ends := fun k : StartKind => withLive (fun L => { L with port := { L.port with startAfter := some k } }) inHand
    line.live.powered = true ∧ line.live.storeValid = true ∧ (lost line).live.powered = true ∧
      (lost line).live.storeValid = false ∧ dark.live.powered = false ∧ dark.live.storeValid = true ∧
      ∀ k, (ends k).live.powered = true ∧ (ends k).live.port.inHand.isSome = true ∧ (ends k).live.port.startAfter = some k ∧
        (ends k).live.storeValid = true :=
  ⟨rfl, rfl, rfl, rfl, rfl, rfl, fun _ => ⟨rfl, rfl, rfl, rfl⟩⟩

/-- R128: a hireable bike, a faulty bike, a free dock, one reserved for a drop, a bike reserved for pickup. -/
theorem test_fill_counts :
    let docks := (((line.live.docks.set 2 { heldDock with snapshot := some (.read markedBike) }).set 3
      { emptyDock with reservation := .vanDrop }).set 4 { heldDock with reservation := .vanPickup }).set 5
      { heldDock with link := .silent }
    countFill { line.live with docks := docks } =
      ({ usable := 5, hireable := 1, free := 1, reservedDocks := 1, reservedBikes := 1, other := 2, faulty := 1 } : FillCounts) := by
  decide +kernel

/-- Rider's and crew's releases at A01 and A02 whose UNLATCHes wait in the queue of arm A. -/
def entryAt (p : Pos) : QueueEntry := { pos := p, command := .unlatch none 30, issuer := .hireEngine }
def waiting2 (t : Option Txn) (s : State) : State :=
  withLive
    (fun L => { L with releases := [releaseAt0], crew := [{ crewAct with pos := 1 }]
                       journal := { L.journal with claims := 1 }
                       docks := (L.docks.set 0 { heldDock with latch := some .unlatching }).set 1
                         { heldDock with latch := some .unlatching } })
    (withArm { runningArm with queue := [entryAt 0, entryAt 1], txn := t } s)

theorem witness_MainsLossEntersHoldover_withdrawn :
    let s := waiting2 none line
    let o := withLive (fun L => { L with releases := [releaseAt0], crew := [{ crewAct with pos := 1 }] }) line
    let keeps : State := { s with setup := { s.setup with arms := Vector.replicate 4 { coldArmConfig with holdoverKeep := true } } }
    s.live.powered = true ∧ s.live.boot = none ∧ s.live.power.state = .run ∧ s.live.power.battLow = false ∧
      (∀ (b : Arm) (p : Pos), ∀ e ∈ (s.live.arm b).queue, e.unlatches p = true → armOf p = b) ∧ firstWriter s.live = none ∧
      (∀ p : Pos, (s.live.dock p).latch = some .held → (s.live.dock p).known = true) ∧
      findCard s.live.cards 1 = some (member 1) ∧ findRelease s.live 0 = some releaseAt0 ∧ unlatchQueued s.live 0 = true ∧
      (s.live.dock 0).known = true ∧ (s.live.arm (armOf 0)).state ≠ .off ∧ findRelease s.live 1 = none ∧
      findCrew s.live 1 = some { crewAct with pos := 1 } ∧ unlatchQueued s.live 1 = true ∧ (s.live.dock 1).known = true ∧
      (after .mainsOkFalse keeps).live.power.shedSet[armOf 0] = false ∧ unlatchQueued o.live 0 = false ∧
      unlatchQueued o.live 1 = false ∧ (s.live.dock 0).inRotation = true := by decide +kernel

theorem witness_ArmServiceSetsTheRequest_given_up :
    let s := waiting2 none line
    let l := withArm { runningArm with state := .service } line
    (s.live.arm 0).state = .running ∧ firstWriter s.live = none ∧ findRelease s.live 0 = some releaseAt0 ∧
      unlatchQueued s.live 0 = true ∧ findRelease s.live 1 = none ∧ findCrew s.live 1 = some { crewAct with pos := 1 } ∧
      unlatchQueued s.live 1 = true ∧ (l.live.arm 0).state = .service ∧ (l.live.dock 0).inRotation = true ∧
      (after (.armServiceLeave 0) l).live.power.state = .run ∧ (line.live.dock 0).lamp ≠ some .off ∧
      lampPending line.live 0 = false ∧ (line.live.arm 0).queue = [] := by decide +kernel

theorem witness_ServiceLineHoldsItsArms_arms :
    let member := fun s : State => { s with setup := { s.setup with arms := Vector.replicate 4 { coldArmConfig with service := true } } }
    let s := member (waiting2 none (withLive (fun L => { L with queries := [query9] }) line))
    let l := withArm { runningArm with state := .service } line
    Working s ∧ (s.live.arm (armOf 0)).state = .running ∧ (s.setup.arms[armOf (0 : Pos)]).service = true ∧ query9 ∈ s.live.queries ∧
      firstWriter s.live = none ∧ findRelease s.live 0 = some releaseAt0 ∧ unlatchQueued s.live 0 = true ∧
      findRelease s.live 1 = none ∧ findCrew s.live 1 = some { crewAct with pos := 1 } ∧ unlatchQueued s.live 1 = true ∧
      (l.live.arm (armOf 0)).state = .service ∧ ((false && (l.setup.arms[armOf (0 : Pos)]).service) || l.live.power.request[armOf (0 : Pos)]) = false ∧
      (line.live.dock 0).inRotation = true ∧ (line.live.dock 0).lamp ≠ some .off ∧ lampPending line.live 0 = false ∧
      (line.live.arm (armOf 0)).queue = [] ∧ firstWriter line.live = none := by
  refine ⟨⟨rfl, rfl⟩, ?_⟩; decide +kernel

/-- R186, R187: the line takes its members into SERVICE, each with ARM CHANGE, withdraws what is queued there and removes the
query; the arms' resting code is DOCK OUT OF SERVICE. -/
theorem test_service_line_enters :
    let s := waiting2 none (withLive (fun L => { L with queries := [query9] }) line)
    let t := after .serviceLineAsserted { s with setup := { s.setup with arms := Vector.replicate 4 { coldArmConfig with service := true } } }
    t.live.attention[EventKind.armChange.idx].count = 4 ∧ t.live.releases = [] ∧ t.live.crew = [] ∧ t.live.queries = [] ∧
      (t.live.dock 0).lastResting = some .dockOutOfService := by decide +kernel

/-- Arm A STOPPING, its stop waiting for the transaction. -/
def stopWaiting (t : Txn) (s : State := withDock emptyDock line) : State :=
  withArm { ArmRec.initial with state := .stopping, rootClosed := true, txn := some t, stopWaits := true } s

/-- For the statements in which the last transaction of a STOPPING arm ends: each transaction, by its answer and its timeout. -/
theorem witness_StopWaits :
    (∀ t, StopWaits 0 (stopWaiting t) ∧ ((stopWaiting t).live.arm 0).txn = some t) ∧
      answers lampSent.entry.command .done = true ∧
      (let s := stopWaiting (.poll 1 none none none)
       (s.live.dock (posAt 0 1)).known = true ∧ (s.live.dock (posAt 0 3)).known = false ∧
        (s.live.link (posAt 0 1)).lastAnswer ≠ some 7 ∧ (s.live.dock (posAt 0 1)).kind = some .dock ∧
        (s.live.dock (posAt 0 1)).latch = some .empty ∧ (s.live.arm 0).queue = [] ∧ (s.live.arm 0).resend = none) :=
  ⟨fun _ => ⟨⟨⟨rfl, rfl⟩, rfl, rfl, rfl⟩, rfl⟩, by decide, by decide +kernel⟩

theorem witness_due :
    RestingDue 0 .ready line.live ∧ RestingDue 0 .stationClosed held.live ∧ LampDue 0 .on line.live ∧
      LampDue 0 .dim held.live ∧ LampDue 0 .off (withArm { runningArm with state := .service } line).live ∧
      RestingDue 0 .dockOutOfService (withArm { runningArm with state := .service } line).live := by
  refine ⟨⟨?_, ?_, ?_, fun _ _ _ _ => rfl⟩, ⟨fun _ => rfl, ?_, ?_, ?_⟩, ⟨?_, ?_, fun _ _ _ => rfl⟩, ⟨?_, fun _ _ => rfl, ?_⟩,
    ⟨fun _ => rfl, ?_, ?_⟩, ⟨?_, fun _ _ => rfl, ?_, ?_⟩⟩ <;> (try unfold Excess) <;> decide +kernel

/-- All sixteen positions of arm A answer. -/
def sixteen : State :=
  withLive (fun L => { L with docks := Vector.ofFn fun p : Pos => if p.val < 16 then emptyDock else DockRec.cold }) line

theorem witness_ArmDiscoverBeginsADiscovery_extension :
    let answers := fun (s : State) (i : Nat) => (s.live.dock (posAt 0 i)).inRotation = true
    let none_ := withDock DockRec.cold line
    let fed := withLive (fun L => { L with links := L.links.set 1 { LinkRec.initial with switch := .closed } }) line
    Taking line ∧ ¬ answers line 3 ∧ (∀ i, 1 ≤ i → i < 3 → answers line i) ∧
      (line.live.link (posAt 0 (3 - 1))).switch ≠ .closed ∧ (fed.live.link (posAt 0 (3 - 1))).switch = .closed ∧
      ¬ answers none_ 1 ∧ (line.live.arm 0).txn = none ∧ (line.live.arm 0).repower = [] ∧ Taking sixteen ∧
      (sixteen.live.arm 0).state = .running ∧ ∀ i, 1 ≤ i → i ≤ 16 → answers sixteen i := by
  refine ⟨line_taking, by decide +kernel, ?_, by decide +kernel, by decide +kernel, by decide +kernel, rfl, rfl,
    ⟨⟨rfl, rfl⟩, by decide⟩, rfl, ?_⟩
  · have h : ∀ i ∈ [1, 2], (line.live.dock (posAt 0 i)).inRotation = true := by decide +kernel
    intro i a b
    exact h i (by simp only [List.mem_cons, List.not_mem_nil, or_false]; omega)
  · have h : ∀ i : Fin 17, 1 ≤ i.val → (sixteen.live.dock (posAt 0 i.val)).inRotation = true := by decide +kernel
    exact fun i a b => h ⟨i, by omega⟩ a

/-- R5, R9: an extension passes A01 and A02 and feeds A03 from A02; where all sixteen answer it ends at once. -/
theorem test_arm_discover_extends :
    ((after (.armDiscover 0) line).live.arm 0).txn = some (.passPower 2) ∧
      ((after (.armDiscover 0) sixteen).live.arm 0).discovery = none ∧
      (after (.armDiscover 0) sixteen).live.attention[EventKind.armChange.idx].count = 1 := by decide +kernel

/-- R21: an answer to the last transaction is taken and its events applied, and then the root is open: A01 is DARK with the bike
that came in, and nothing of the arm is in hand; a timeout opens the root too. -/
theorem test_stop_ends_with_the_transaction :
    let told := fun s : State =>
      ((s.live.dock 0).link, (s.live.dock 0).latch, (s.live.arm 0).txn, (s.live.arm 0).stopWaits, (s.live.arm 0).rootClosed)
    let poll := stopWaiting (.poll 1 none none none) sixteen
    told (after (.pollAnswer 0 { number := 7, events := [.bikeIn (.read (bike 9))], overrun := false }) poll) =
        (.dark, some .held, none, false, false) ∧
      told (after (.answerTimeout 0) poll) = (.dark, some .empty, none, false, false) := by decide +kernel

theorem witness_ArmOffStopsTheArm_changes :
    let s := waiting2 none line
    let w := waiting2 (some (.recovery 3)) line
    let o := withDock { heldDock with latch := some .opened } line
    (s.live.arm 0).state = .running ∧ (s.live.arm 0).txn = none ∧ (s.live.arm 0).resend = none ∧
      findRelease s.live 0 = some releaseAt0 ∧ unlatchQueued s.live 0 = true ∧ (s.live.dock 0).known = true ∧
      (w.live.arm 0).txn ≠ none ∧ (o.live.arm 0).txn = none ∧ (o.live.dock 0).known = true ∧
      (o.live.dock 0).latch = some .opened ∧ ∀ e ∈ (o.live.arm 0).queue, e.unlatches 0 = false := by decide +kernel

theorem witness_RootSenseEndsTheStop_faults :
    let s := fun (b : Bool) (w : Bool) => withArm { ArmRec.initial with state := .stopping, secondFault := b, stopWaits := w } line
    ∀ b w, ((s b w).live.arm 0).secondFault = b ∧ ((s b w).live.arm 0).stopWaits = w ∧ Roomy 1 (s b w) := by decide +kernel

/-- Arm A waits for an IDENTIFY of A01, whose record is d. -/
def asked (t : Txn) (w : Work) (d : DockRec) : State := withDock d (busy t w)

theorem witness_IdentifyAnswerMakesReady_records :
    let loc := asked (.locProbe 1) (.locateProbe 0 2) { heldDock with link := .lost }
    let lost := withLive
      (fun L => { L with
        faults := [{ faultOf false .none with kind := .nodeLost }], docks := L.docks.set 1 { emptyDock with link := .lost } })
      (asked (.recovery 1) .none { heldDock with link := .lost })
    let kiosks := withLive (fun L => { L with docks := (((L.docks.set 1 kioskRec).set 2 kioskRec).set 3 kioskRec).set 4 kioskRec })
      (asked (.probe 1) (.probe 1 0) DockRec.cold)
    (loc.live.arm 0).txn = some (.locProbe 1) ∧ (loc.live.arm 0).work = .locateProbe 0 2 ∧
      (lost.live.arm 0).txn = some (.recovery 1) ∧ (lost.live.arm 0).txn ≠ some (.probe 1) ∧
      (∀ f ∈ lost.live.faults, f = { faultOf false .none with kind := .nodeLost }) ∧ lost.live.faults ≠ [] ∧
      endRoom lost.live = true ∧ (lost.live.dock (posAt 0 (1 + 1))).link = .lost ∧ (lost.live.arm 0).repower = [] ∧
      kiosks.live.faults.length + 64 ≤ 95 ∧ firstWriter kiosks.live = none := by decide +kernel

/-- R23: the fifth kiosk in position order is excess once A01 is identified as a kiosk. -/
theorem test_kiosk_excess :
    let s := withLive (fun L => { L with docks := (((L.docks.set 1 kioskRec).set 2 kioskRec).set 3 kioskRec).set 4 kioskRec })
      (asked (.probe 1) (.probe 1 0) DockRec.cold)
    let t := after (.discoveryIdentifyAnswer 0 { serial := 9, switch := .opened, lamp := .on, report := .kiosk }) s
    (t.live.faults.map fun f => (f.kind, f.subject)) = [(.kioskExcess, .position 4)] ∧ (t.live.dock 4).lastResting = some .stationClosed := by
  decide +kernel

theorem witness_IdentifyAnswerMakesReady_first :
    let s := asked (.probe 1) (.probe 1 0) DockRec.cold
    let k := asked (.recovery 1) .none { kioskRec with link := .lost }
    let out := withLive (fun L => { L with releases := [{ releaseAt0 with pos := 1, stamp := hire }]
                                           docks := L.docks.set 1 { heldDock with latch := some .uncertain } }) s
    let listed := withLive (fun L => { L with closing := [{ entryOf 5 with start := 490 }] }) s
    let full := asked (.probe 1) (.probe 1 0) { DockRec.cold with slot := some { slotOf .running with bike := 8 } }
    let inSlot := withLive (fun L => { L with docks := L.docks.set 1 { heldDock with slot := some (slotOf .running) } }) s
    (s.live.arm 0).state ≠ .starting ∧ (s.live.dock 0).kind = none ∧ (s.live.dock 0).latch ≠ some .uncertain ∧
      (k.live.dock 0).kind = some .kiosk ∧ (k.live.dock 0).latch = none ∧
      openBike.stamp = .opened hire ∧ findClosing s.live 5 490 = none ∧
      (∀ q : Pos, slotHolds s.live 5 490 q = false) ∧ s.setup.station = some 7 ∧ hire.originStation = 7 ∧
      hire.originPos = 0 ∧ releaseElsewhere s.live 5 490 1 = none ∧
      releaseElsewhere out.live 5 490 0 = some { releaseAt0 with pos := 1, stamp := hire } ∧
      findClosing listed.live 5 490 = some { entryOf 5 with start := 490 } ∧ (listed.live.arm 0).queue.length < 16 ∧
      (∀ q : Pos, q ≠ 0 → (listed.live.dock q).holdsStamp 5 490 = false) ∧ (full.live.dock 0).slot ≠ none ∧
      slotHolds inSlot.live 5 490 1 = true ∧ closingFree s.live = true ∧ s.live.clock.valid = true ∧
      lampPending s.live 0 = false ∧ firstWriter s.live = none := by decide +kernel

/-- R92: a bike with an OPEN stamp of another station at a first identification is a return, with LATE set and RETURN OK
shown; at A01 with a stamp of A01 the claim to be out is cleared instead, with no slot. -/
theorem test_first_identification :
    let ans := fun (t : Tag) => ({ serial := 1, switch := .opened, lamp := .on, report := .dock .idle (some (.read t)) } : IdentifyAnswer)
    let s := asked (.probe 1) (.probe 1 0) DockRec.cold
    let far := after (.discoveryIdentifyAnswer 0 (ans { bike 5 with stamp := .opened { hire with originStation := 112 } })) s
    let here := after (.discoveryIdentifyAnswer 0 (ans openBike)) s
    ((far.live.dock 0).slot.map fun x => (x.window, x.flags.late)) = some (.running, true) ∧
      (far.live.dock 0).code = some (.returnOk, .message) ∧ (far.live.dock 0).lastResting = some .ready ∧
      (far.live.dock 0).lastBikeIn = none ∧ far.live.counter 0 = 0 ∧ (here.live.dock 0).slot = none ∧
      (here.live.closing.map fun e => (e.bike, e.start, e.close)) = [(5, 490, none)] := by decide +kernel

theorem witness_IdentifyAnswerMakesReady_again :
    let s := fun (l : Latch) => asked (.recovery 1) .none { heldDock with link := .lost, latch := some l }
    let r := fun (l : Latch) => withLive (fun L => { L with releases := [releaseAt0], journal := { L.journal with claims := 1 } }) (s l)
    let c := withLive (fun L => { L with crew := [crewAct] }) (s .uncertain)
    let e := asked (.recovery 1) .none { emptyDock with link := .lost }
    (∀ l, ((s l).live.dock 0).kind = some .dock ∧ ((s l).live.dock 0).latch = some l ∧
        findRelease (r l).live 0 = some releaseAt0 ∧ firstWriter (r l).live = none) ∧
      releaseAt0.bike = 5 ∧ (bike 5).bike = 5 ∧ (bike 9).bike ≠ releaseAt0.bike ∧ closingFree (r .uncertain).live = true ∧
      openBike.stamp = .opened hire ∧ findRelease c.live 0 = none ∧ findCrew c.live 0 = some crewAct ∧
      crewAct.bike = some 5 ∧ crewAct.bike ≠ none ∧ crewAct.bike ≠ some (bike 9).bike ∧
      ((s .held).live.dock 0).snapshot = some (.read (bike 5)) ∧ (e.live.dock 0).latch = some .empty ∧
      findClosing e.live 5 490 = none ∧ (∀ q : Pos, slotHolds e.live 5 490 q = false) ∧
      releaseElsewhere e.live 5 490 0 = none ∧ (e.live.dock 0).slot = none ∧ endRoom e.live = true ∧
      (∀ f ∈ e.live.faults, f.kind ≠ .nodeLost) := by
  refine ⟨fun l => ?_, ?_⟩
  · cases l <;> decide +kernel
  · decide +kernel

/-- R79, first row and last: an UNCERTAIN release whose bike answers is not taken; with none there it was taken, late. -/
theorem test_uncertain_release_settles :
    let ans := fun (x : Option Snapshot) => ({ serial := 1, switch := .opened, lamp := .on, report := .dock .idle x } : IdentifyAnswer)
    let s := withLive (fun L => { L with releases := [releaseAt0], journal := { L.journal with claims := 1 } })
      (asked (.recovery 1) .none { heldDock with link := .lost, latch := some .uncertain })
    let gone := after (.recoveryProbeAnswer 0 (ans none)) s
    let kept := after (.recoveryProbeAnswer 0 (ans (some (.read (bike 5))))) s
    (gone.live.journal.ring.map fun r => r.body) = [.hireStart (stampOf 1 1000) 5 .pedal 0 true] ∧
      (gone.live.dock 0).latch = some .empty ∧ kept.live.journal.ring = [] ∧ kept.live.journal.claims = 0 ∧
      (kept.live.dock 0).latch = some .held := by decide +kernel

/-- Arm A with PASS POWER owed to position 1, whose switch trips while its line work stands at w. -/
def tripped (w : Work) : State :=
  withArm { runningArm with txn := some (.passPower 1), repower := [1], work := w, discovery := some .extended } sixteen

/-- R5, R7, R16: line work that waits for a node which a trip below it has cut off sends it nothing more. -/
theorem test_trip_below_line_work :
    let told := fun w : Work =>
      let t := after (.passPowerAnswer 0 .tripped) (tripped w)
      ((t.live.arm 0).work, (t.live.arm 0).txn)
    [Work.feed 9, .diagnose 9, .locate 8, .waitSlot 9].map told =
        [(.probe 9 0, some (.probe 9)), (.locate 1, some (.report 1)), (.locate 1, some (.report 1)),
          (.waitSlot 9, some (.poll 1 none none none))] ∧
      [8, 9, 10].map (fun k => ((after (.passPowerAnswer 0 .tripped) (tripped (.feed 9))).live.dock (posAt 0 k)).link) =
        [.dark, .probing, .dark] := by decide +kernel

theorem witness_PassPowerAnswerSetsTheSwitch_beyond :
    let s := fun w : Work => (tripped w).live
    let answers := fun i : Nat => ((s .none).dock (posAt 0 i)).inRotation = true
    (∀ w, (s w).powered = true ∧ (s w).boot = none ∧ ((s w).arm 0).state.active = true ∧
      ((s w).arm 0).txn = some (.passPower 1) ∧ ((s w).arm 0).repower = [1] ∧ ((s w).arm 0).work = w) ∧ answers 1 := by
  refine ⟨fun w => ⟨rfl, rfl, rfl, rfl, rfl, rfl⟩, by decide +kernel⟩

theorem witness_PassPowerAnswerSetsTheSwitch_tripped :
    let fed := busy (.passPower 15) (.feed 16)
    let owed := withArm { runningArm with txn := some (.passPower 1), repower := [1], work := .waitSlot 9, discovery := some .extended } line
    (fed.live.arm 0).work = .feed (15 + 1) ∧ 1 ∈ (owed.live.arm 0).repower ∧ (owed.live.arm 0).work ≠ .feed (1 + 1) ∧
      Roomy 1 fed ∧ Roomy 1 owed := by decide +kernel

/-- R16: LINE SHORT beyond a recovered node's switch. -/
theorem test_tripped_opens_line_short :
    let t := after (.passPowerAnswer 0 .tripped) (busy (.passPower 2) (.feed 3))
    (t.live.faults.map fun f => (f.kind, f.subject)) = [(.lineShort, .position 2)] ∧ (t.live.arm 0).discovery = none := by
  decide +kernel

theorem witness_OpenSwitchAnswerEndsOrMovesTheIsolation_stuck : Roomy 1 (busy (.openSwitch 16) (.isolate 16 true)) := by
  decide +kernel

theorem witness_PollAnswerResetsTheMisses_silent :
    let s := withDock { heldDock with link := .silent } (busy (.poll 1 none none none) .none)
    s.live.powered = true ∧ s.live.boot = none ∧ (s.live.arm 0).state.active = true ∧
      (s.live.arm 0).txn = some (.poll 1 none none none) ∧ (s.live.dock (posAt 0 1)).link = .silent ∧
      lampPending (polled heldDock).live 0 = false ∧ (∀ e ∈ (polled heldDock).live.closing, e.retry ≠ some 0) ∧
      (heldDock.lamp ≠ some .dim ∧ heldDock.lamp = some .on) ∧
      (let r := withArm { runningArm with txn := some (.poll 1 (some (.wait, .message)) (some .ready) none) } line
       (r.live.arm 0).txn = some (.poll 1 (some (.wait, .message)) (some .ready) none) ∧ (r.live.dock 0).code = none) := by
  decide +kernel

theorem witness_CommandAnswersReachTheDock_silent :
    let c := withDock { heldDock with link := .silent } (busy (.command lampSent) .none)
    answers lampSent.entry.command .done = true ∧ (c.live.dock lampSent.entry.pos).link = .silent := by decide +kernel

theorem witness_DockResolveSettlesThePosition_entries :
    closingFree uncertain.live = true ∧ findClosing uncertain.live 5 1000 = none ∧ endRoom crewUncertain.live = true ∧
      (crewUncertain.live.dock 0).slot = none ∧ applying crewUncertain.setup 0 = none ∧
      endRoom (claimed 512 crewUncertain).live = false ∧ ((claimed 512 crewUncertain).live.dock 0).moves.length < 4 := by
  decide +kernel

/-- Three records at A01: two live ones barring and one CLEARED. -/
def threeBars : List FaultRec :=
  [{ faultOf true .none with number := 1 }, { faultOf true .none with number := 2, kind := .latchJam },
    { faultOf false .none with number := 3, kind := .tagFault, state := .cleared }]

theorem witness_FaultAckAndClearActOnOneRecord_bars :
    let s := withLive (fun L => { L with faults := threeBars }) (polled heldDock [crewCard])
    let bars := fun s : State => s.live.faults.filter fun x => x.barring && x.subject = .position (posAt 0 1)
    (s.live.faults.map (·.number)).Nodup ∧ (∀ f ∈ bars s, f.pending = .none) ∧ firstWriter s.live = none ∧
      (bars s).length = 2 ∧ (bars s).length ≤ s.live.journal.room ∧ endRoom (claimed 512 s).live = false := by
  decide +kernel

/-- R167: a crew card at a barred dock clears both barring records, FAULT CLEARED written for each. -/
theorem test_crew_clears_two_bars :
    let t := after (.pollAnswer 0 { number := 1, events := [.tap 3], overrun := false })
      (withLive (fun L => { L with faults := threeBars }) (polled heldDock [crewCard]))
    (t.live.faults.map fun f => f.number) = [3] ∧ t.live.journal.ring.length = 2 := by decide +kernel

/-- The line polling A01 with a record of LATCH JAM there. -/
def jammed (st : FaultState) : State :=
  withLive (fun L => { L with faults := [{ faultOf true .none with number := 5, kind := .latchJam, state := st }] }) (polled heldDock)

/-- The fault list filled with records of other positions. -/
def listFull : State :=
  withLive (fun L => { L with faults := (List.range 95).map fun n => { faultOf false .none with number := n + 1, subject := .position 9 } })
    (polled heldDock)

theorem witness_FaultAckAndClearActOnOneRecord_list :
    let mine := fun (k : FaultKind) (x : FaultRec) => decide (x.kind = k) && decide (x.subject = .position (posAt 0 1))
    let u := polled emptyDock
    let reported := fun (m : Nat) (rs : List Nat) => withLive
      (fun L => { L with faults := [{ faultOf false .none with lastSeen := m, reports := rs }] }) (polled emptyDock)
    let barred_ := withLive (fun L => { L with faults := threeBars.tail.map fun f => { f with barring := false, state := .opened }
                                               crew := [crewAct] })
      (withArm { runningArm with txn := some (.poll 1 none none none), queue := [entryAt 0] } (polled { heldDock with reservation := .vanPickup }))
    PollsA 1 (polled heldDock) ∧ (u.live.dock 0).kind = some .dock ∧ (u.live.dock 0).snapshot = none ∧
      (u.live.dock 0).slot = none ∧
      ((jammed .opened).live.faults.find? (mine .latchJam)).isSome = true ∧
      ((jammed .cleared).live.faults.find? (mine .latchJam)).isSome = true ∧
      ((reported 999 [900, 999]).live.faults.find? (mine .dockReported)).isSome = true ∧
      ¬(999 + 1440 < (reported 999 [900, 999]).live.clock.minute) ∧ (reported 999 [900, 999]).live.clock.minute ≤ 900 + 1440 ∧
      (u.live.faults.find? (mine .dockReported)) = none ∧ u.live.faults.length < 95 ∧ endRoom u.live = true ∧
      endRoom (claimed 512 u).live = false ∧ (listFull.live.faults.find? (mine .latchJam)) = none ∧
      95 ≤ (listFull.live.faults.filter fun x => x.kind ≠ .listFull).length ∧
      barred barred_.live 0 = false ∧ findCrew barred_.live 0 ≠ none ∧ unlatchQueued barred_.live 0 = true := by
  decide +kernel

/-- R157, R158, R161, R163: a repeat, a reopening, a lost fault, the third report, the third record at a dock. -/
theorem test_fault_list_rules :
    let told := fun (e : NodeEvent) (s : State) => (after (.pollAnswer 0 { number := 1, events := [e], overrun := false }) s).live
    ((told .latchJam (jammed .opened)).faults.map fun f => (f.number, f.repeats, f.state)) = [(5, 2, .opened)] ∧
      ((told .latchJam (jammed .cleared)).faults.map fun f => (f.number, f.repeats, f.state)) = [(5, 2, .opened)] ∧
      ((told .latchJam listFull).faults.filter fun f => f.kind = .listFull).map (fun f => f.detail) = [.lastLost .latchJam (.position 0)] ∧
      (let s := withLive (fun L => { L with faults := [{ faultOf false .none with lastSeen := 999, reports := [900, 999] }] })
        (polled emptyDock)
       ((told .button s).faults.map fun f => (f.reports, f.barring)) = [([900, 999, 1000], true)]) ∧
      (let s := withLive (fun L => { L with faults := [{ faultOf false .none with number := 1, kind := .tagFault },
          { faultOf false .none with number := 2, kind := .readerFault }] }) (polled emptyDock)
       ((told .button s).faults.map fun f => (f.kind, f.barring)) = [(.tagFault, false), (.readerFault, false), (.dockReported, true)]) := by
  decide +kernel

/-- R207: the body of START ORDER is a list, its count byte first. -/
theorem test_frame_start_order :
    let s := fun (b : List Byte) => (after (.hostFrame (frame 6 9 b)) base).live.port.inHand.map fun h => h.reply.result
    s [4, 3, 2, 1, 0] = some .done ∧ s [3, 2, 1, 0] ≠ some .done ∧ s [4, 3, 3, 1, 0] = some .range := by decide +kernel

/-! ## The clauses on sequences, ends of walks, waiting writers and invariants -/

theorem witness_AFrameCutShortIsOnlyCollected_damaged :
    let covered := (2 : Byte) :: 4 :: 9 :: [1, 2]
    let collected := after (.hostFrame [0xA5, 0]) line
    240 < (241 : Byte).toNat ∧ ([1, 2] : List Byte).length = (2 : Byte).toNat ∧ (2 : Byte).toNat ≤ 240 ∧
      ([0, 0] : List Byte).length = 2 ∧ ([0, 0] : List Byte) ≠ crcBytes covered ∧ (∀ b ∈ [(7 : Byte)], b ≠ Config.sync) ∧
      line.live.powered = true ∧ line.live.port.rx = [] ∧ collected.live.port.rx ≠ [] := by decide +kernel

/-- R196: a frame with a wrong CRC leaves no trace, and the whole frame after it is taken; so after a length byte of 241. -/
theorem test_damaged_frame_is_skipped :
    let told := fun bytes : List Byte => (after (.hostFrame bytes) line).live.port.inHand.map fun h => (h.kind, h.tag)
    told ([0xA5, 0, 4, 8, 0, 0] ++ frame 4 9 []) = some (4, 9) ∧ told ([0xA5, 241, 4, 8] ++ frame 4 9 []) = some (4, 9) ∧
      told [0xA5, 0, 4, 8, 0, 0] = none := by decide +kernel

theorem witness_TariffCommitMovesTheGenerations_restart :
    let ends := withLive (fun L => { L with port := { L.port with startAfter := some .restart } }) inHand
    line.live.powered = true ∧ line.live.storeValid = true ∧ ends.live.port.inHand ≠ none ∧
      ends.live.port.startAfter = some .restart ∧ off.live.boot = none ∧ off.live.power.state = .off := by decide +kernel

/-- The line with its fill counts and fill state brought up to its records. -/
def counted (s : State) : State := withLive (refill s.setup) s

/-- The list with 95 ordinary records, no two of one kind and subject, and LIST FULL. -/
def distinctFaults : List FaultRec :=
  { faultOf false .none with number := 100, kind := .listFull, subject := .station } ::
    (List.range 95).map fun n =>
      { faultOf false .none with
        number := n + 1, kind := if n < 64 then .latchJam else .tagFault, subject := .position (Fin.ofNat 64 n) }

/-- A step answers a next state. -/
theorem steps {s : State} (h : (match step s with | .next _ => true | _ => false) = true) : ∃ t, step s = .next t := by
  split at h
  · exact ⟨_, ‹_›⟩
  · cases h

theorem witness_BandSetTakesTheBand_step :
    let s := { counted line with pending := [.counterReset 0] }
    FillAgrees s ∧ s.live.fill.hireable = 1 ∧ ∃ t, step s = .next t := by
  refine ⟨⟨?_, ?_, ?_⟩, ?_, steps ?_⟩ <;> decide +kernel

theorem witness_StepKeepsTheJournalNumbered_claims :
    let s := { claimed 512 line with pending := [.journalRelease 0] }
    ClaimsFit s.live ∧ ¬ ClaimsFit (claimed 513 line).live ∧ ∃ t, step s = .next t := by
  refine ⟨?_, ?_, steps ?_⟩
  · unfold ClaimsFit; decide +kernel
  · unfold ClaimsFit; decide +kernel
  · decide +kernel

theorem witness_VanVisitCloses_step :
    let s := { withDock { heldDock with reservation := .vanPickup } visiting with pending := [.vanClose] }
    ReservedForVisit s.live ∧ ReservedForVisit line.live ∧ ∃ t, step s = .next t := by
  refine ⟨.inl (.inl ?_), .inr ?_, steps ?_⟩ <;> decide +kernel

theorem witness_FaultAckAndClearActOnOneRecord_step :
    let s : State := { withLive (fun L => { L with faults := distinctFaults }) line with pending := [.faultClear 1] }
    FaultsDistinct s.live ∧ s.live.faults.length = 96 ∧ ∃ t, step s = .next t := by
  refine ⟨⟨?_, ?_, ?_, ?_⟩, ?_, steps ?_⟩ <;> decide +kernel

theorem witness_PresetsAndCountersAreSet_unchanged :
    let s : State :=
      { withLive (fun L => { L with counters := L.counters.set 0 5 }) base with
        setup := { base.setup with presetIndex := base.setup.presetIndex.set 0 1, presets := base.setup.presets.set 0 (some 5) } }
    Taking s ∧ s.setup.presets[(0 : Fin 4)] = some 5 ∧ (s.setup.presetIndex[(0 : Pos)]).val = 0 + 1 ∧ 5 ≤ s.live.counter 0 ∧
      applying s.setup 0 = some 5 ∧ (after (.presetSetValue 1 5) s).live.faults = [] := by
  refine ⟨⟨⟨rfl, rfl⟩, by decide⟩, ?_⟩; decide +kernel

/-- The line with an invalid clock at minute m and a slot without fare at A01. -/
def unpriced (m : Nat) : State :=
  withLive (fun L => { L with clock := { minute := m, second := 5, valid := false } })
    (withDock { heldDock with slot := some (slotOf .expired), snapshot := some (.read { bike 5 with stamp := .opened hire }) } line)

theorem witness_SetTimeSetsTheClock_clauses :
    let out := withCards [{ member 1 with outCount := 1 }, { pass 2 with outCount := 1 }]
    let slot := withLive (fun L => { L with docks := L.docks.set 0 { heldDock with slot := some { slotOf .running with
      stamp := { hire with card := 2, pass := true } } } }) line
    line.live.clock.valid = true ∧ line.live.clock.minute = 1000 ∧ PassDue line.live 2000 (pass 2) ∧
      findCard line.live.cards 2 = some (pass 2) ∧ ¬ PassDue line.live 1999 (pass 2) ∧
      ¬ PassDue out.live 2000 { pass 2 with outCount := 1 } ∧ ¬ PassDue slot.live 2000 (pass 2) ∧
      (line.live.cards.map (·.card)).Nodup ∧
      (∀ m ∈ [100, 1000], Taking (unpriced m) ∧ (unpriced m).live.clock.valid = false ∧ FaultRoom 64 (unpriced m).live ∧
        ((unpriced m).live.dock 0).slot = some (slotOf .expired) ∧ endRoom (unpriced m).live = true ∧
        closingFree (unpriced m).live = true ∧ ((unpriced m).live.dock 0).inRotation = true) ∧
      (fareRequest line.setup hire .pedal 100 .balanced).2.clock = true ∧
      (fareRequest line.setup hire .pedal 1000 .balanced).2.clock = false := by
  refine ⟨rfl, rfl, ⟨rfl, ⟨2000, rfl, by decide⟩, rfl, rfl, ?_⟩, by decide +kernel, ?_, ?_, ?_, by decide +kernel, ?_,
    by decide +kernel, by decide +kernel⟩
  · have h : ∀ p : Pos, (line.live.dock p).slot = none := by decide +kernel
    intro p x e; rw [h p] at e; cases e
  · rintro ⟨_, ⟨e, he, h⟩, _⟩
    cases he; exact absurd h (by decide)
  · rintro ⟨_, _, h, _⟩
    exact absurd h (by decide)
  · rintro ⟨_, _, _, _, h⟩
    exact h 0 { slotOf .running with stamp := { hire with card := 2, pass := true } } (by decide +kernel) ⟨rfl, rfl⟩
  · intro m hm
    simp only [List.mem_cons, List.not_mem_nil, or_false] at hm
    rcases hm with rfl | rfl <;>
      exact ⟨⟨⟨rfl, rfl⟩, by decide⟩, rfl, ⟨by decide +kernel, by decide +kernel⟩, by decide +kernel, by decide +kernel,
        by decide +kernel, by decide +kernel⟩

/-- R84 and R88: SET TIME prices the slot without fare with LATE set and settles it; R102: an end before the start is the
CLOCK flag, and opens CLOCK. -/
theorem test_set_time_prices_late :
    let t := after (.setTime 1000 0 false) { unpriced 1000 with setup := { priced with station := some 7 } }
    let early := after (.setTime 100 0 false) { unpriced 100 with setup := { priced with station := some 7 } }
    (t.live.dock 0).slot = none ∧ t.live.faults = [] ∧
      (t.live.journal.ring.map fun r => match r.body with
        | .hireEnd x _ => some (x.endMinute, x.flags.late, x.flags.clock)
        | _ => none) = [some (some 1000, true, false)] ∧
      (early.live.faults.map fun f => (f.kind, f.subject)) = [(.clock, .bike 5)] := by decide +kernel

/-- R66: at the new minute the pass check closes pass 2, PASS CLOSED written; the member stays. -/
theorem test_set_time_checks_passes :
    let t := after (.setTime 2000 0 false) line
    (t.live.cards.map fun c => c.card) = [1] ∧ (t.live.journal.ring.map fun r => r.subject) = [.card 2] := by decide +kernel

/-- A part whose arm A is shed at night. -/
def nightly (s : State) : State :=
  { s with setup := { s.setup with arms := (Vector.replicate 4 coldArmConfig).set 0 { coldArmConfig with nightOff := true } } }

/-- A quiet part whose arm A carries a shed mark. -/
def shed (r : ArmRec) : State :=
  withLive (fun L => { L with power := { L.power with shedMark := Vector.ofFn fun a : Arm => a = 0
                                                      shedSet := Vector.ofFn fun a : Arm => a = 0 } }) (withArm r quiet)

/-- A part that holds arm A in service at the end of a discovery, or not: the SERVICE line, the arm record's membership, a
sequence in flight that began the arm's discovery and the membership it was built with, the request. -/
def serviced (line_ member_ inFlight kept request : Bool) (s : State) : State :=
  { withLive
      (fun L => { L with power := { L.power with
        service := line_, sequence := if inFlight then [(.start, 1)] else [], begun := Vector.replicate 4 inFlight
        members := Vector.replicate 4 kept, request := Vector.replicate 4 request } }) s with
    setup := { s.setup with arms := Vector.replicate 4 { coldArmConfig with service := member_ } } }

/-- For QuietChangesThePowerState, MainsLossEntersHoldover, MainsReturnLeavesHoldover and StartupLinesChooseThePowerState: each
case of the sequence that is built. -/
theorem witness_sequences :
    Taking (nightly line) ∧ (nightly line).live.power.state = .run ∧ (line.live.arm 0).state.active = true ∧
      [(StepAction.stop, (0 : Arm))].dropWhile (passedOver line.live) = [(.stop, 0)] ∧
      (∀ st ∈ [ArmState.off, .stopping], Taking (shed { ArmRec.initial with state := st }) ∧
        ((shed { ArmRec.initial with state := st }).live.arm 0).state = st ∧
        [(StepAction.start, (0 : Arm))].dropWhile (passedOver (shed { ArmRec.initial with state := st }).live) = [(.start, 0)]) ∧
      [(StepAction.start, (0 : Arm))].dropWhile (passedOver (shed runningArm).live) = [] ∧ (nightly held).live.power.state = .holdover := by
  refine ⟨⟨⟨rfl, rfl⟩, by decide⟩, rfl, by decide, by decide +kernel, ?_, by decide +kernel, rfl⟩
  intro st h
  simp only [List.mem_cons, List.not_mem_nil, or_false] at h
  rcases h with rfl | rfl <;> exact ⟨⟨⟨rfl, rfl⟩, by decide⟩, rfl, by decide +kernel⟩

/-- R184, R185: at QUIET OFF the start of a marked arm waits for its stop, and an arm that is on is passed over; at a start-up
the arms outside the shed set are started in start order. R1: the sequence keeps the membership of the arm records. -/
theorem test_sequences_are_built :
    let P := fun s : State => s.live.power
    let stopping := after .quietOff (serviced false true false false false (shed { ArmRec.initial with state := .stopping }))
    let up := after (.startupLineRead true false false) State.reset
    (P stopping).sequence = [(.start, 0)] ∧ (P stopping).waiting = true ∧ (P stopping).members[(0 : Arm)] = true ∧
      (P (after .quietOff (nightly (shed runningArm)))).sequence = [] ∧
      (P up).sequence = [(.start, 1), (.start, 2), (.start, 3)] := by decide +kernel

/-- For the statements in which a discovery ends: an arm held in service, and one that is not, in each case of HeldAtEnd. -/
theorem witness_HeldAtEnd :
    let holds := fun (l m i k r : Bool) (s : State) => HeldAtEnd (serviced l m i k r s).setup 0 (serviced l m i k r s).live
    (∀ s : State, holds true true false false false s ∧ ¬ holds true false false true false s ∧ holds true false true true false s ∧
      ¬ holds true true true false false s ∧ holds false false false false true s ∧ ¬ holds false true true true false s) := by
  intro holds s
  simp [holds, HeldAtEnd, serviced, withLive, coldArmConfig]

/-- Arm A STARTING in a full discovery, with a transaction and line work in progress. -/
def walking (t : Option Txn) (w : Work) (s : State) : State :=
  withArm { runningArm with state := .starting, txn := t, work := w, discovery := some .full } s

/-- A station that expects n nodes on each arm. -/
def expecting (n : Nat) (s : State) : State :=
  { s with setup := { s.setup with arms := Vector.replicate 4 { coldArmConfig with expected := n } } }

/-- For the same statements: a walk that ends, with fewer nodes than expected and with as many. -/
theorem witness_discovery_ends :
    let few := fun s : State => allNums.countP (fun i => (s.live.dock (posAt 0 i)).inRotation) < (s.setup.arms[(0 : Arm)]).expected
    let w := walking none (.waitSlot 16) sixteen
    Working w ∧ (w.live.arm 0).work = .waitSlot 16 ∧ (w.live.arm 0).state = .starting ∧
      (∀ i : Fin 17, 16 ≤ i.val → (w.live.dock (posAt 0 i.val)).inRotation = true) ∧
      (∀ n, (walking none (.waitSlot 16) (expecting n sixteen)).setup.arms[(0 : Arm)].expected = n) ∧
      few (expecting 3 line) ∧ ¬ few (expecting 2 line) ∧ ¬ few (expecting 16 sixteen) ∧ FaultRoom 70 line.live ∧
      FaultRoom 70 w.live ∧
      (∀ t u, ((walking (some t) u line).live.arm 0).txn = some t ∧ ((walking (some t) u line).live.arm 0).work = u ∧
        ((walking (some t) u line).live.arm 0).state = .starting ∧ ((walking (some t) u line).live.arm 0).discovery ≠ none) := by
  refine ⟨⟨rfl, rfl⟩, rfl, rfl, by decide +kernel, fun _ => rfl, by decide +kernel, by decide +kernel, by decide +kernel,
    ⟨by decide, by decide +kernel⟩, ⟨by decide, by decide +kernel⟩, fun _ _ => ⟨rfl, rfl, rfl, nofun⟩⟩

/-- R8, R185, R186: a full discovery that ends leaves the arm RUNNING, or SERVICE where it is held; ARM SHORTFALL is opened
where fewer nodes than expected answer; R1: a discovery of a sequence in flight goes by the membership the sequence was built
with, and one that ARM DISCOVER began by the record. -/
theorem test_end_of_a_discovery :
    let ends := fun s : State =>
      let t := after (.slotExpiry 0) (walking none (.waitSlot 3) s)
      ((t.live.arm 0).state, t.live.faults.map fun f => (f.kind, f.subject))
    let fourteen := withLive (fun L => { L with docks := (L.docks.set 0 DockRec.cold).set 1 DockRec.cold }) sixteen
    let asked := withLive (fun L => { L with power := { L.power with begun := Vector.replicate 4 false } })
    [expecting 14 fourteen, expecting 15 fourteen, serviced true true false false false sixteen,
      serviced true true true false false sixteen, serviced true false true true false sixteen,
      asked (serviced true true true false false sixteen), asked (serviced true false true true false sixteen)].map ends =
    [(.running, []), (.running, [(.armShortfall, .arm 0)]), (.service, []), (.running, []), (.service, []), (.service, []),
      (.running, [])] := by
  decide +kernel

/-- R1, R185: the discovery that a START step begins is the sequence's, the one of ARM DISCOVER is not. -/
theorem test_whose_discovery :
    let off := fun a : Arm => { ArmRec.initial with state := if a = 0 then .off else .running }
    let s := withLive (fun L => { L with arms := Vector.ofFn off }) (serviced false true true false false sixteen)
    let begun := fun t : State => (t.live.power.begun[(0 : Arm)], t.live.power.begun[(1 : Arm)], (t.live.arm 0).state)
    let step := withLive (fun L => { L with power := { L.power with
      sequence := [(.start, 0), (.start, 1)], begun := Vector.replicate 4 false } }) s
    begun (after (.armDiscover 0) s) = (false, true, .starting) ∧
      begun (after .sequenceStep step) = (true, false, .starting) := by decide +kernel

/-- Arm A in an extension that waits for its last slot, RUNNING or put into SERVICE meanwhile. -/
def extending (st : ArmState) (s : State) : State :=
  withArm { runningArm with state := st, work := .waitSlot 16, discovery := some .extended } s

/-- For the same statements: an extension's arm that is held in service by its record or its request, and one that is not; the
answer to an IDENTIFY that leaves such an arm where it is. -/
theorem witness_HeldNow :
    let holds := fun (l m r : Bool) (s : State) => HeldNow (serviced l m true false r s).setup 0 (serviced l m true false r s).live
    (∀ s : State, holds true true false s ∧ ¬ holds true false false s ∧ ¬ holds false true false s ∧ holds false false true s) ∧
      ∀ st ∈ [ArmState.running, .service], ((extending st sixteen).live.arm 0).state = st ∧
        ((extending st sixteen).live.arm 0).discovery ≠ none ∧ ((extending st sixteen).live.arm 0).work = .waitSlot 16 := by
  refine ⟨fun s => ?_, by decide +kernel⟩
  simp [HeldNow, serviced, withLive, coldArmConfig]

/-- R2, R186: the end of an extension puts an arm into SERVICE that its record or its request holds, though the sequence in flight
was built with another membership, takes one out that nothing holds, and raises ARM CHANGE once each time. -/
theorem test_end_of_an_extension :
    let ends := fun (st : ArmState) (s : State) =>
      let t := after (.slotExpiry 0) (extending st s)
      ((t.live.arm 0).state, t.live.attention[EventKind.armChange.idx].count)
    [sixteen, serviced true true true false false sixteen, serviced false false false false true sixteen].map (ends .running) =
        [(.running, 1), (.service, 1), (.service, 1)] ∧
      [sixteen, serviced true true false false false sixteen].map (ends .service) = [(.running, 1), (.service, 1)] ∧
      ((after (.armDiscover 0) (serviced true true true false false sixteen)).live.arm 0).state = .service := by decide +kernel

/-- For the same statements, and those in which an isolation or a localization ends. -/
theorem witness_ends_of_line_work :
    let beyond := fun (k : Nat) (s : State) => ∀ i : Fin 17, k < i.val → 1 ≤ i.val → (s.live.dock (posAt 0 i.val)).inRotation = true
    let root := walking none .diagnoseRoot line
    let probe := fun (k tries : Nat) => walking (some (.probe k)) (.probe k tries) sixteen
    let waits := walking none (.waitSlot 1) sixteen
    let within := fun (l : Bool) (d : Option DiscoveryKind) =>
      withArm { runningArm with txn := some (.openSwitch 2), work := .isolate 2 l, discovery := d } line
    (root.live.arm 0).work = .diagnoseRoot ∧ (root.live.arm 0).state = .starting ∧ beyond 16 (probe 16 0) ∧ beyond 1 (probe 1 2) ∧
      ((probe 1 2).live.arm 0).txn = some (.probe 1) ∧ ((probe 1 2).live.arm 0).work = .probe 1 2 ∧ beyond 0 waits ∧
      (waits.live.arm 0).work = .waitSlot 1 ∧
      (∀ l ∈ [true, false], ∀ d ∈ [none, some DiscoveryKind.full], ((within l d).live.arm 0).discovery = d) ∧
      (line.live.dock (posAt 0 2)).known = true ∧ (line.live.dock (posAt 0 3)).known = false ∧
      (busy (.report 2) (.locate 2)).live.faults.length + 2 ≤ 95 ∧ firstWriter (busy (.report 2) (.locate 2)).live = none := by
  decide +kernel

/-- R7, R17, R18: an isolation and a localization that end leave a position beyond DARK where its node is known and ABSENT where
none is, with ARM CHANGE raised once. -/
theorem test_beyond_is_dark :
    let told := fun s : State => ((s.live.dock 15).link, s.live.attention[EventKind.armChange.idx].count)
    let known := withLive fun L => { L with docks := L.docks.set 15 { emptyDock with link := .lost } }
    let isolation := busy (.openSwitch 15) (.isolate 15 true)
    [after (.openSwitchAnswer 0 .opened) isolation, after (.openSwitchAnswer 0 .opened) (known isolation),
      after (.switchReportAnswer 0 .opened .overcurrent) (known (busy (.report 15) (.locate 15)))].map told =
    [(.absent, 1), (.dark, 1), (.dark, 1)] := by decide +kernel

/-- R1: a change of the arm record leaves the membership that a sequence in flight was built with. -/
theorem test_sequence_keeps_membership :
    let t := after (.armConfigure 0 16 false false true) (serviced false false true false false line)
    t.live.power.members[(0 : Arm)] = false ∧ (t.setup.arms[(0 : Arm)]).service = true := by decide +kernel

/-- R14: a poll carries the number of the last answer taken from its node, or none. -/
theorem test_poll_carries_the_last_answer :
    let s := fun n : Option Byte => withLive (fun L => { L with links := L.links.set 0 { LinkRec.initial with lastAnswer := n } }) line
    ∀ n ∈ [none, some 200], ((pump (s n).live).arm 0).txn = some (.poll 1 ((s n).live.dock 0).code none n) := by decide +kernel

/-! ## The clauses on releases, waiting writers and visits -/

theorem witness_CommandAnswersReachTheDock_fails :
    let remote := withLive
      (fun L => { L with releases := [{ releaseAt0 with remote := true }]
                         remotes := [{ tag := 3, pos := 0, card := 1, accepted := 999, ended := none }] }) unlatching
    let crew := withLive (fun L => { L with releases := [], crew := [crewAct], journal := { L.journal with claims := 0 } }) unlatching
    Working remote ∧ (remote.live.arm 0).txn = some (.command unlatchSent) ∧ (remote.live.dock 0).link = .ready ∧
      findRelease remote.live 0 = some { releaseAt0 with remote := true } ∧ firstWriter remote.live = none ∧
      barred remote.live 0 = false ∧ (remote.live.dock 0).kind = some .dock ∧ Roomy 1 remote ∧
      findRelease crew.live 0 = none ∧ findCrew crew.live 0 = some crewAct ∧ barred crew.live 0 = false := by
  refine ⟨⟨rfl, rfl⟩, ?_⟩; decide +kernel

/-- R74, R82: a remote release whose UNLATCH fails gives the card back, and its entry ends REFUSED with the code shown. -/
theorem test_failed_unlatch :
    let s := withLive
      (fun L => { L with releases := [{ releaseAt0 with remote := true }], cards := [{ member 1 with outCount := 1 }]
                         remotes := [{ tag := 3, pos := 0, card := 1, accepted := 999, ended := none }] }) unlatching
    let told := fun ans : CommandAnswer =>
      let t := (after (.commandAnswer 0 ans) s).live
      (t.remotes.map (·.ended), t.faults.map (·.kind))
    let back := fun ans : CommandAnswer =>
      let t := (after (.commandAnswer 0 ans) s).live
      (t.cards.map (·.outCount), t.journal.claims, (t.dock 0).lastResting)
    [CommandAnswer.tagFail, .jammed].map told =
        [([some (.refused .bikeFaulty, 1000)], [.tagFault]), ([some (.refused .dockOutOfService, 1000)], [.latchJam])] ∧
      [CommandAnswer.tagFail, .jammed].map back = List.replicate 2 ([0], 0, some .dockOutOfService) := by decide +kernel

theorem witness_DockResolveSettlesThePosition_remote :
    let s := withLive
      (fun L => { L with releases := [{ releaseAt0 with remote := true }]
                         remotes := [{ tag := 3, pos := 0, card := 1, accepted := 999, ended := none }] }) uncertain
    Taking s ∧ (s.live.dock 0).latch = some .uncertain ∧ findRelease s.live 0 = some { releaseAt0 with remote := true } ∧
      findRelease uncertain.live 0 = some releaseAt0 ∧ releaseAt0.remote = false := by
  refine ⟨⟨⟨rfl, rfl⟩, by decide⟩, ?_⟩; decide +kernel

/-- A READY dock whose bike was returned at minute 999. -/
def returned : State := withDock { heldDock with snapshot := some (.read { bike 5 with stamp := .closed (stampOf 3 999) 999 }) } line

theorem witness_RemoteReleaseStartsARelease_refusals :
    let at_ := fun d : DockRec => withDock d line
    let ready := fun s : State => Taking s ∧ (s.live.dock 0).kind = some .dock ∧ (s.live.dock 0).link = .ready ∧ s.live.remotes.length < 8
    ready returned ∧ ready held ∧ held.live.power.state = .holdover ∧
      ready (withArm { runningArm with state := .starting } line) ∧ ready (withArm { runningArm with state := .service } line) ∧
      ready (faulty true .none) ∧ barred (faulty true .none).live 0 = true ∧ ready (at_ emptyDock) ∧
      ready (at_ { heldDock with snapshot := none }) ∧ ready (at_ { heldDock with reservation := .vanPickup }) ∧
      ready (at_ { heldDock with snapshot := some .unread }) ∧ ready (at_ { heldDock with snapshot := some (.read openBike) }) ∧
      ready (at_ { heldDock with snapshot := some (.read markedBike) }) ∧ ready settling ∧
      ready (at_ { heldDock with snapshot := some (.read { bike 5 with stamp := .closed (stampOf 3 1000) 1000 }) }) := by
  refine ⟨?_, ?_, rfl, ?_, ?_, ?_, by decide +kernel, ?_, ?_, ?_, ?_, ?_, ?_, ?_, ?_⟩ <;>
    exact ⟨⟨⟨rfl, rfl⟩, by decide⟩, by decide +kernel, by decide +kernel, by decide +kernel⟩

theorem witness_RemoteReleaseStartsARelease_cards :
    let s := fun c : CardRec => withLive (fun L => { L with cards := [c] }) returned
    let m := member 1
    let dear : State := { s (pass 2) with setup := { priced with current := { priced.current with plans := Vector.replicate 8 { plan2 with M := 2001 } } } }
    findCard (s m).live.cards 9 = none ∧ findCard (s { m with status := .blocked }).live.cards 1 = some { m with status := .blocked } ∧
      (s { m with expiry := some 1000 }).live.clock.minute = 1000 ∧ closingPass.closure ≠ none ∧ m.allowance = 1 ∧
      findCard (s { m with outCount := 1 }).live.cards 1 = some { m with outCount := 1 } ∧
      (pass 2).holdRemaining < (dear.setup.current.plan (pass 2).plan).M ∧ (claimed 480 (s m)).live.journal.room = 32 ∧
      16 ≤ ((queueFull (s m)).live.arm 0).queue.length := by decide +kernel

/-- R71, R81: each refusal of REMOTE RELEASE shows its code at the dock. -/
theorem test_remote_refusals :
    let s := fun c : CardRec => withLive (fun L => { L with cards := [c], arms := L.arms.set 0 { runningArm with txn := some (.probe 9) } }) returned
    let told := fun (id : Nat) (s : State) =>
      let t := after (.remoteRelease 5 0 (BitVec.ofNat 64 id)) s
      ((t.live.dock 0).code, t.live.queries.length, t.live.releases.length)
    told 9 (s (member 1)) = (some (.cardUnknown, .message), 0, 0) ∧
      told 1 (s { member 1 with status := .blocked }) = (some (.cardBlocked, .message), 0, 0) ∧
      told 1 (s { member 1 with outCount := 1 }) = (some (.limitReached, .message), 0, 0) ∧
      told 1 (claimed 480 (s (member 1))) = (some (.stationBusy, .message), 0, 0) ∧
      (told 1 (claimed 479 (s (member 1)))).2 = (0, 1) := by decide +kernel

/-- A ring of one record, every place but n claimed; a HIRE END, a move, a fault and a pass closure wait. -/
def writers (slots : Bool) (n : Nat) : State :=
  withLive
    (fun L => { L with
      journal := { L.journal with ring := [bigRecord 1], lastIssued := 1, claims := 512 - n }
      docks := (L.docks.set 0 { heldDock with slot := if slots then some { slotOf .deferredJournal with
        fare := some { gross := 0, credit := 0, net := 0, duration := 0, revision := 0 }
        settlement := some { kind := .account, charged := 0, shortfall := 0, finalNet := 0 }, reserved := true
        asked := some { minute := 950, unset := false } } else none }).set 1 { emptyDock with moves := [moveOf] }
      faults := [{ faultOf false .both with clearing := some (.host, { minute := 960, unset := false }, false), state := .cleared }]
      visit := { state := .closed, data := some { visitData with close := some (.expired, { minute := 970, unset := false }), summaryPending := true } }
      cards := [closingPass] }) line

theorem witness_JournalReleaseRemovesConfirmedRecords_writers :
    (∀ b n, Taking (writers b n) ∧ WritersTold (writers b n).live ∧ 1 ≤ (writers b n).live.journal.lastIssued ∧
        ((writers b n).live.journal.ring.filter fun r => 1 < r.seq).length < (writers b n).live.journal.ring.length) ∧
      waitingEnds (writers false 5).live = [] ∧ (waitingEnds (writers true 1).live).length = 1 ∧
      (waitingMoves (writers true 1).live).length = 1 ∧ (waitingFaults (writers true 1).live).length = 2 ∧
      (waitingSummary (writers true 1).live).length = 1 ∧ (waitingPasses (writers true 1).live).length = 1 ∧
      ∀ n ∈ [0, 1, 5], ({ (writers true n).live.journal with ring := [] } : Journal).room = n := by
  refine ⟨fun b n => ⟨⟨⟨rfl, rfl⟩, nofun⟩, ⟨?_, ?_, ?_, ?_⟩, Nat.le_refl 1, Nat.zero_lt_one⟩, ?_⟩
  · intro f hf _
    have e : (writers b n).live.faults =
        [{ faultOf false .both with clearing := some (.host, { minute := 960, unset := false }, false), state := .cleared }] := rfl
    rw [e, List.mem_singleton] at hf
    rw [hf]; exact nofun
  · intro v hv _
    cases hv; exact nofun
  · exact List.nodup_singleton _
  · exact List.nodup_singleton _
  · decide +kernel

/-- R120, R121: HIRE END first, then the move, FAULT OPENED, FAULT CLEARED, the van summary and the pass closure; one place of
room takes the first alone, and none takes nothing. -/
theorem test_waiting_writers_in_order :
    let told := fun s : State => (after (.journalRelease 1) s).live.journal.ring.map fun r => (r.seq, r.subject)
    let all := [(2, Subject.bike 5), (3, .position 1), (4, .position 0), (5, .position 0), (6, .station), (7, .card 2)]
    [writers true 6, writers true 1, writers true 0].map told = [all, all.take 1, []] ∧
      told (writers false 4) = [(2, .position 1), (3, .position 0), (4, .position 0), (5, .station)] := by decide +kernel

/-- A visit OPEN with crew actions at A01, A02 and A03 whose UNLATCHes wait in the queue, but for A03's. -/
def crewVisit (w : Purpose) : State :=
  withLive (fun L => { L with visit := { state := .opened, data := some visitData }, releases := []
                              journal := { L.journal with claims := 0 }
                              docks := L.docks.set 2 { heldDock with latch := some .opened }
                              crew := [{ crewAct with purpose := w }, { crewAct with pos := 1 }, { crewAct with pos := 2 }] })
    (waiting2 (some (.poll 3 none none none)) line)

theorem witness_VanVisitCloses_crew :
    Taking (crewVisit .collection) ∧ (crewVisit .collection).live.visit.data = some visitData ∧
      (∀ p : Pos, p = 0 ∨ p = 1 → unlatchQueued (crewVisit .collection).live p = true) ∧
      unlatchQueued (crewVisit .collection).live 2 = false ∧ ((crewVisit .collection).live.arm (armOf 1)).txn ≠ none := by
  refine ⟨⟨⟨rfl, rfl⟩, by decide⟩, ?_⟩; decide +kernel

/-- For LowBatteryInHoldoverEntersOff and MainsLossEntersHoldover: an open visit, with room for its summary, a queued pickup and
an arm that is not on. -/
theorem witness_VisitClosed :
    let s := crewVisit .pickup
    let low := withLive (fun L => { L with power := { L.power with battLow := true } }) s
    Working (withPower .holdover s) ∧ (withPower .holdover s).live.power.state = .holdover ∧ s.live.visit.state = .opened ∧
      s.live.visit.data = some visitData ∧ endRoom s.live = true ∧ (base.live.arm 0).state.active = false ∧
      (∀ p : Pos, p = 0 ∨ p = 1 → findRelease s.live p = none ∧ unlatchQueued s.live p = true) ∧
      low.live.power.state = .run ∧ low.live.power.battLow = true ∧ low.live.visit.state = .opened := by
  refine ⟨⟨rfl, rfl⟩, rfl, rfl, rfl, ?_⟩; decide +kernel

/-- R151, R152, R181: the entry into OFF closes the visit POWER with VAN VISIT, and abandons the sequence. -/
theorem test_off_closes_the_visit :
    let s := withLive (fun L => { L with arms := Vector.replicate 4 ArmRec.initial }) visiting
    let t := after .battLowTrue (sequenced .start false (withPower .holdover s))
    t.live.visit.state = .closed ∧ (t.live.visit.data.bind fun v => v.close.map (·.1)) = some .power ∧
      (t.live.journal.ring.map fun r => r.subject) = [.station] ∧ t.live.power.sequence = [] ∧
      t.live.power.shedSet[(3 : Arm)] = true := by decide +kernel

/-- R143, R151: at the close a queued pickup is withdrawn; a queued collection and a pickup under way stay. -/
theorem test_close_withdraws_queued_pickups :
    let told := fun w : Purpose => (after .vanClose (crewVisit w)).live.crew.map (·.pos)
    told .collection = [0, 2] ∧ told .pickup = [2] := by decide +kernel

/-- R151: a WORKING visit with an all-zero work order stays open at a van drop that is counted. -/
theorem test_all_zero_work_order_stays :
    let s := withLive (fun L => { L with visit := { state := .working, data := some { visitData with dropsPlanned := 0 } } }) (polled emptyDock)
    let one := withLive (fun L => { L with visit := { state := .working, data := some visitData } }) (polled emptyDock)
    let told := fun s : State =>
      let v := (after (.pollAnswer 0 { number := 1, events := [.bikeIn (.read (bike 9))], overrun := false }) s).live.visit
      (v.state, v.data.map fun d => d.dropsDone)
    [s, one].map told = [(.working, some 1), (.closed, some 1)] := by decide +kernel

theorem witness_WindowExpirySettlesTheSlot_work_orders :
    let asks := fun v : VisitRec => v.pickupsPlanned ≠ 0 ∨ v.dropsPlanned ≠ 0 ∨ v.collectionsPlanned ≠ 0
    asks visitData ∧ ¬ asks { visitData with dropsPlanned := 0 } ∧
      asks { visitData with dropsPlanned := 0, collectionsPlanned := 1 } ∧
      ¬(1 ≤ ({ visitData with dropsPlanned := 0, collectionsPlanned := 1 } : VisitRec).collectionsDone) := by decide


/-! ## Results the spec writes out -/

/-- R207: the CRC of the nine characters "123456789" is 29B1. -/
theorem test_crc_check_value : crc [0x31, 0x32, 0x33, 0x34, 0x35, 0x36, 0x37, 0x38, 0x39] = 0x29B1#16 := by decide +kernel

/-- Section 5.6, case 1: an e-bike for 157 minutes at a station in DEFICIT. -/
theorem test_fare_case_1 :
    (fareRequest priced hire .ebike 647 .deficit).1 =
      { gross := 1250, credit := 100, net := 1150, duration := 157, revision := 7 } := by decide +kernel

/-- Section 5.6, case 2: 1600 minutes, PEDAL, BALANCED. -/
theorem test_fare_case_2 : (fareRequest priced hire .pedal (490 + 1600) .balanced).1.net = 3300 := by decide +kernel

/-- Section 5.6, the table of durations. -/
theorem test_fare_durations :
    let gross := fun (k : BikeKind) (d : Nat) => (fareRequest priced hire k (490 + d) .balanced).1.gross
    [0, 30, 31, 60, 61, 157, 1439, 1440, 1441, 1600, 3000].map (gross .pedal) =
        [0, 0, 150, 150, 300, 750, 2400, 2400, 2550, 3300, 5400] ∧
      [0, 30, 31, 60, 61, 157, 1439, 1440, 1441, 1600, 3000].map (gross .ebike) =
        [0, 0, 250, 250, 500, 1250, 2400, 2400, 2650, 3900, 5800] := by decide +kernel

/-- Section 5.6, case 4: 50,000 minutes under plan 5, an e-bike, SURPLUS. -/
theorem test_fare_case_4 :
    let g := { priced with current := { revision := 7, plans := Vector.replicate 8 { F := 0, B := 15, P := 200, E := 200, C := 0, K := 50, W := 0, M := 5000 } } }
    let f := fareRequest g hire .ebike (490 + 50000) .surplus
    f.1 = { gross := 1000000, credit := 0, net := 1000000, duration := 43200, revision := 7 } ∧
      f.2.overlong = true ∧ f.2.ceiling = true ∧ f.2.eligible = false := by decide +kernel

/-- Section 5.6, case 5: a revision that the part no longer holds is priced under current. -/
theorem test_fare_case_5 :
    let g := { priced with current := { priced.current with revision := 9 }, previous := { priced.current with revision := 8 } }
    let f := fareRequest g hire .pedal (490 + 455) .balanced
    f.1.revision = 9 ∧ f.2.fallback = true := by decide +kernel

/-- R208: the bytes of a tag with no stamp and no mark start with the bike ID, least significant byte first. -/
theorem test_tag_bytes : (encodeTag (bike 0x01020304)).take 4 = [4, 3, 2, 1] ∧ (encodeTag (bike 5)).length = 36 := by
  decide +kernel

/-- R195: a request frame is the sync byte, its length, kind, tag and body, and the CRC. -/
theorem test_frame_shape : (frame 4 9 []).take 4 = [0xA5, 0, 4, 9] ∧ (frame 4 9 []).length = 6 := by decide +kernel

/-- A frame of READ TIME puts its reply in hand with its tag. -/
theorem test_frame_read_time :
    ((after (.hostFrame (frame 4 9 [])) line).live.port.inHand.map fun h => (h.kind, h.tag, h.reply.result)) =
      some (4, 9, .done) := by decide +kernel

/-- R9: ARM DISCOVER on an OFF arm starts it; on a RUNNING arm it begins an extension. -/
theorem test_arm_discover :
    ((after (.armDiscover 2) base).live.arm 2).state = .starting ∧ ((after (.armDiscover 0) line).live.arm 0).state = .running ∧
      resultOf (.armDiscover 0) line = some .accepted := by decide +kernel

/-- Section 1.5's example: the third miss of a poll makes the position LOST with a NODE LOST record. -/
theorem test_third_miss :
    let s := withLive (fun L => { L with links := L.links.set 0 { LinkRec.initial with misses := 2 } }) (busy (.poll 1 none none none) .none)
    let t := after (.answerTimeout 0) s
    (t.live.dock 0).link = .lost ∧ (t.live.faults.map fun f => (f.kind, f.subject)) = [(.nodeLost, .position 0)] := by
  decide +kernel

/-- Section 8's example: BUTTON at an empty dock opens DOCK REPORTED with count 1. -/
theorem test_button_at_an_empty_dock :
    let t := after (.pollAnswer 0 { number := 1, events := [.button], overrun := false }) (busy (.poll 2 none none none) .none)
    (t.live.faults.map fun f => (f.kind, f.subject, f.repeats, f.barring)) = [(.dockReported, .position 1, 1, false)] := by
  decide +kernel

/-- Section 2's example: a bike with an OPEN stamp arrives; the latch is HELD and a settlement slot is placed. -/
theorem test_return_places_a_slot :
    let t := after
      (.pollAnswer 0
        { number := 1, overrun := false
          events := [.bikeIn (.read { bike 9 with stamp := .opened { stampOf 1 980 with originStation := 112 } })] })
      (busy (.poll 2 none none none) .none)
    (t.live.dock 1).latch = some .held ∧ ((t.live.dock 1).slot.map fun x => (x.window, x.secondsLeft)) = some (.running, 60) ∧
      t.live.counter 1 = 1 := by decide +kernel

/-- Section 3's example: a tap of a card the station has not seen makes a query entry. -/
theorem test_unknown_tap_makes_a_query :
    let t := after (.pollAnswer 0 { number := 1, events := [.tap 77], overrun := false }) (busy (.poll 1 none none none) .none)
    (t.live.queries.map fun q => (q.card, q.pos, q.secondsLeft)) = [(77, 0, 3)] := by decide +kernel

/-- R71–R73: a tap of a good member at a hireable bike starts a release. -/
theorem test_tap_starts_a_release :
    let t := after (.pollAnswer 0 { number := 1, events := [.tap 1], overrun := false }) (busy (.poll 1 none none none) .none)
    (t.live.dock 0).latch = some .unlatching ∧ (t.live.cards.map fun c => c.outCount) = [1, 0] ∧ t.live.journal.claims = 1 := by
  decide +kernel

/-- R74: TAKEN writes the HIRE START in its claim's room and empties the latch. -/
theorem test_taken_writes_hire_start :
    let s := withLive (fun L => { L with releases := [releaseAt0], journal := { L.journal with claims := 1 }
                                         docks := L.docks.set 0 { heldDock with latch := some .opened } })
      (busy (.poll 1 none none none) .none)
    let t := after (.pollAnswer 0 { number := 1, events := [.taken], overrun := false }) s
    (t.live.dock 0).latch = some .empty ∧ t.live.releases = [] ∧ t.live.journal.claims = 0 ∧
      (t.live.journal.ring.map fun r => r.body) = [.hireStart (stampOf 1 1000) 5 .pedal 0 false] := by decide +kernel

/-- R98, case 5 of section 5.6: a revision that previous holds is refused REVISION USED. -/
theorem test_revision_used :
    let s : State := { base with setup := { base.setup with current := { priced.current with revision := 8 }, previous := priced.current } }
    resultOf (.tariffCommit 7) s = some .refused ∧ resultOf (.tariffCommit 9) s = some .done := by decide +kernel

/-- R189: the clock is set only where the station has its number. -/
theorem test_no_station : resultOf (.setTime 5 0 false) { base with setup := Setup.cold } = some .refused := by decide +kernel

/-- R190: a slot length is rounded down to one of the four. -/
theorem test_slot_lengths : [0, 99, 249, 250, 999, 1000, 3999, 65535].map roundSlot = [100, 100, 100, 250, 250, 1000, 1000, 4000] := by
  decide

/-- Section 9.2's example: mains lost for good makes HOLDOVER. -/
theorem test_mains_loss : (after .mainsOkFalse line).live.power.state = .holdover := by decide +kernel

/-- R71, step 11, and the table of section 6: with unclaimed room at 0 a tap is refused STATION BUSY, and no claim is made. -/
theorem test_no_room_refuses :
    let s := withLive (fun L => { L with journal := { L.journal with claims := 512 } }) (busy (.poll 1 none none none) .none)
    let t := after (.pollAnswer 0 { number := 1, events := [.tap 1], overrun := false }) s
    t.live.journal.claims = 512 ∧ (t.live.dock 0).latch = some .held := by decide +kernel

/-- R14: an answer under the number last taken brings its events no second time. -/
theorem test_answer_taken_once :
    let a : PollAnswer := { number := 1, events := [.button], overrun := false }
    let s := withLive (fun L => { L with links := L.links.set 0 { LinkRec.initial with lastAnswer := some 1 } })
      (busy (.poll 1 none none none) .none)
    (after (.pollAnswer 0 a) s).live.faults = [] := by decide +kernel

/-- Section 1.3's example: a position whose third IDENTIFY try is not answered, with none beyond it, is ABSENT at once. -/
theorem test_third_try_leaves_probing :
    let t := after (.identifyTimeout 0) (busy (.probe 3) (.probe 3 2))
    (t.live.dock 2).link = .absent ∧ (t.live.arm 0).txn = some (.report 2) := by decide +kernel

/-- R42: a latch settled in a kiosk's record is removed, and R173: its counter does not move. -/
theorem test_settled_in_a_kiosk_record :
    let t := after (.dockResolveKept 0) (withDock { heldDock with kind := some .kiosk, latch := some .uncertain } uncertain)
    (t.live.dock 0).latch = none ∧ (t.live.dock 0).snapshot = none ∧ t.live.counter 0 = 0 := by decide +kernel

/-- R142: an UNREAD snapshot at RELATCHED keeps the pickup's reservation. -/
theorem test_unread_keeps_the_pickup :
    let s := withLive (fun L => { L with crew := [crewAct] })
      (withDock { heldDock with latch := some .opened, reservation := .vanPickup } (busy (.poll 1 none none none) .none))
    let t := after (.pollAnswer 0 { number := 1, events := [.relatched .unread], overrun := false }) s
    (t.live.dock 0).reservation = .vanPickup ∧ (t.live.dock 0).latch = some .held ∧ t.live.crew = [] := by decide +kernel

end Sys2Proof.Tests
end

section
/-! PROOFS. The fare unit (chapter 5): the tariff requests, what a start-up keeps of the generations, the stages of a
fare. -/

namespace Sys2Proof.Machine

/-! ## Requests of a part that takes them -/

/-- A part that works and is out of OFF hands the request to its owner (R198). -/
theorem takeRequest_of_taking {s : State} (h : Taking s) (kind tag : Byte) (owner : Owner) :
    takeRequest kind tag owner s = setInHand kind tag (owner s).2 (owner s).1 := by
  obtain ⟨⟨powered, boot⟩, state⟩ := h
  simp [takeRequest, powered, boot, state]

/-- TARIFF STAGE as the fare unit answers it. -/
theorem exec_tariffStage_of_taking {s : State} (h : Taking s) (plan : Nat) (f : PlanFields) :
    exec (.tariffStage plan f) s =
      .next (setInHand 26 0 (tariffStage plan f s.setup s.live).2
        { s with setup := (tariffStage plan f s.setup s.live).1 }) :=
  congrArg Host.Outcome.next (takeRequest_of_taking h 26 0 (ownTariffStage plan f))

/-- TARIFF COMMIT as the fare unit answers it. -/
theorem exec_tariffCommit_of_taking {s : State} (h : Taking s) (r : Nat) :
    exec (.tariffCommit r) s =
      .next (setInHand 27 0 (tariffCommit r s.setup s.live).2 { s with setup := (tariffCommit r s.setup s.live).1 }) :=
  congrArg Host.Outcome.next (takeRequest_of_taking h 27 0 (ownTariffCommit r))

/-! ## TARIFF STAGE -/

theorem planOk_iff (f : PlanFields) :
    planOk f = true ↔ f.F ≤ 240 ∧ 1 ≤ f.B ∧ f.B ≤ 120 ∧ f.P ≤ 5000 ∧ f.E ≤ 5000 ∧ f.C ≤ 100000 ∧ f.K ≤ 2000 ∧
      f.W ≤ 60 ∧ f.M ≤ 100000 :=
  decide_eq_true_iff

theorem plan?_of_ge {plan : Nat} (h : 8 ≤ plan) : plan? plan = none := dif_neg (Nat.not_lt.mpr h)

@[simp] theorem plan?_val (c : PlanClass) : plan? c.val = some c := dif_pos c.isLt

/-- A class above 7 or a field out of its range is turned down with the settings as they were. -/
theorem tariffStage_out_of_range {plan : Nat} {f : PlanFields} (h : 8 ≤ plan ∨ ¬ planOk f = true) (g : Setup) (L : Live) :
    tariffStage plan f g L = (g, plain .range) := by
  unfold tariffStage
  cases hc : plan? plan with
  | none => rfl
  | some c =>
    have bad : ¬ planOk f = true := h.resolve_left fun big => by simp [plan?_of_ge big] at hc
    exact if_neg bad

/-- A record in its ranges is written whole. -/
theorem tariffStage_in_range {f : PlanFields} (c : PlanClass) (h : planOk f = true) (g : Setup) (L : Live) :
    tariffStage c.val f g L =
      ({ g with staging := { g.staging with plans := upd g.staging.plans c fun _ => f }, edited := true }, done []) := by
  simp [tariffStage, h]

/-! ## What is staged is not read -/

/-- The settings with another generation staged and another edited flag. -/
def Setup.restage (g : Setup) (staging : Generation) (edited : Bool) : Setup :=
  { g with staging := staging, edited := edited }

section
variable (g : Setup) (t : Generation) (e : Bool)

theorem fareRequest_restage (x : Stamp) (kind : BikeKind) (finish : Minute) (fill : FillState) :
    fareRequest (g.restage t e) x kind finish fill = fareRequest g x kind finish fill := rfl

@[simp] theorem buildStamp_restage (p : Pos) (r : CardRec) (L : Live) :
    buildStamp (g.restage t e) p r L = buildStamp g p r L := rfl

@[simp] theorem decideCard_restage (r : CardRec) (L : Live) : decideCard (g.restage t e) r L = decideCard g r L := rfl

@[simp] theorem tapLookup_restage (c : CardId) (p : Pos) (L : Live) :
    tapLookup (g.restage t e) c p L = tapLookup g c p L := rfl

@[simp] theorem refill_restage (L : Live) : refill (g.restage t e) L = refill g L := rfl

@[simp] theorem updDock_restage (p : Pos) (f : DockRec → DockRec) (L : Live) :
    updDock (g.restage t e) p f L = updDock g p f L := refill_restage g t e _

/-- The take window and the band are all that an UNLATCH reads of the settings. -/
@[simp] theorem offerUnlatch_restage (p : Pos) (s : Option Stamp) (i : Issuer) (L : Live) :
    offerUnlatch (g.restage t e) p s i L = offerUnlatch g p s i L := by
  simp only [offerUnlatch, updDock_restage]; rfl

@[simp] theorem decideRecord_restage (p : Pos) (r : CardRec) (remote : Bool) (L : Live) :
    decideRecord (g.restage t e) p r remote L = decideRecord g p r remote L := by
  simp only [decideRecord, decideCard_restage, buildStamp_restage, offerUnlatch_restage]

theorem decideTap_restage (p : Pos) (c : CardId) (L : Live) : decideTap (g.restage t e) p c L = decideTap g p c L := by
  simp only [decideTap, tapLookup_restage, decideRecord_restage]

theorem decideRemote_restage (p : Pos) (c : CardId) (L : Live) :
    decideRemote (g.restage t e) p c L = decideRemote g p c L := by
  simp only [decideRemote, decideRecord_restage]

end

/-- Settles O18: the two outcomes of the fare unit's `tariffStage`, and no decision reading what is staged. -/
theorem tariffStageWritesOnePlan : Obligations.TariffStageWritesOnePlan := by
  refine ⟨fun g t e => ⟨fareRequest_restage g t e, buildStamp_restage g t e, decideTap_restage g t e,
    decideRemote_restage g t e⟩, fun plan f s taking => ?_⟩
  rw [exec_tariffStage_of_taking taking]
  dsimp only
  rw [← planOk_iff]
  constructor
  · intro bad
    rw [tariffStage_out_of_range bad]
  · rintro c rfl good
    refine ⟨_, by rw [tariffStage_in_range c good], fun d => ?_⟩
    exact upd_get s.setup.staging.plans c d _

/-! ## TARIFF COMMIT -/

section
variable {r : Nat} {g : Setup} (L : Live)

theorem tariffCommit_out_of_range (h : r = 0 ∨ 65535 < r) : tariffCommit r g L = (g, plain .range) := if_pos h

theorem tariffCommit_used (h1 : 1 ≤ r) (h2 : r ≤ 65535) (used : r = g.current.revision ∨ r = g.previous.revision) :
    tariffCommit r g L = (g, refuse .revisionUsed) := by
  have inRange : ¬ (r = 0 ∨ 65535 < r) := by omega
  rw [tariffCommit, if_neg inRange, if_pos used]

theorem tariffCommit_new (h1 : 1 ≤ r) (h2 : r ≤ 65535) (hc : r ≠ g.current.revision) (hp : r ≠ g.previous.revision) :
    tariffCommit r g L =
      ({ g with
          previous := g.current, current := { g.staging with revision := r }, staging := { g.staging with revision := r }
          edited := false },
        done [b2 r, b2 g.current.revision]) := by
  have inRange : ¬ (r = 0 ∨ 65535 < r) := by omega
  rw [tariffCommit, if_neg inRange, if_neg (not_or.mpr ⟨hc, hp⟩)]

end

/-! ## Start-ups and the generations -/

/-- The tariff registers of two settings are the same (R96). -/
def SameTariff (g h : Setup) : Prop :=
  h.current = g.current ∧ h.previous = g.previous ∧ h.staging = g.staging ∧ h.edited = g.edited

/-- A restart over a valid store keeps the settings but for the slot length and the hire settings (R93, R182). -/
theorem beginStartup_restart_setup {s : State} (h : s.live.storeValid = true) :
    (beginStartup .restart s).setup = restartSetup s.setup := by
  simp [beginStartup, h]

theorem beginStartup_restart_tariff {s : State} (h : s.live.storeValid = true) :
    SameTariff s.setup (beginStartup .restart s).setup := by
  rw [beginStartup_restart_setup h]
  exact ⟨rfl, rfl, rfl, rfl⟩

theorem exec_resetPin_of_powered {s : State} (h : s.live.powered = true) :
    exec .resetPin s = .next (beginStartup .restart s) := congrArg Host.Outcome.next (if_pos h)

/-- The end of the reply to RESTART or COLD CLEAR begins the start-up that waited for it (R192). -/
theorem exec_replySent_of_startAfter {s : State} {h : InHand} {k : StartKind} (powered : s.live.powered = true)
    (hand : s.live.port.inHand = some h) (start : s.live.port.startAfter = some k) :
    exec .replySent s = .next (beginStartup k s) := by
  have ends : replyDone s = beginStartup k s := by simp [replyDone, hand, start]
  rw [← ends]
  exact congrArg Host.Outcome.next (if_pos powered)

/-- Mains return in OFF is a restart, the level of the line taken first (R178). -/
theorem exec_mainsOkTrue_of_off {s : State} (works : Working s) (off : s.live.power.state = .off) :
    exec .mainsOkTrue s =
      .next (beginStartup .restart
        { s with live := { s.live with power := { s.live.power with mainsOk := true } } }) := by
  have restarts : mainsTrue s = beginStartup .restart
      { s with live := { s.live with power := { s.live.power with mainsOk := true } } } := by simp [mainsTrue, off]
  rw [← restarts]
  exact congrArg Host.Outcome.next (if_pos works)

/-- Settles O19: the three ways to a restart lead to one `beginStartup`, and TARIFF COMMIT has three outcomes. -/
theorem tariffCommitMovesTheGenerations : Obligations.TariffCommitMovesTheGenerations := by
  refine ⟨fun s powered valid => ⟨?_, fun h hand start => ?_, fun boot off => ?_⟩, fun r s taking => ?_⟩
  · exact ⟨_, exec_resetPin_of_powered powered, beginStartup_restart_tariff valid⟩
  · exact ⟨_, exec_replySent_of_startAfter powered hand start, beginStartup_restart_tariff valid⟩
  · exact ⟨_, exec_mainsOkTrue_of_off ⟨powered, boot⟩ off, beginStartup_restart_tariff valid⟩
  · rw [exec_tariffCommit_of_taking taking]
    refine ⟨fun bad => ?_, fun h1 h2 used => ?_, fun h1 h2 hc hp => ?_⟩
    · rw [tariffCommit_out_of_range _ bad]
    · rw [tariffCommit_used _ h1 h2 used]; rfl
    · rw [tariffCommit_new _ h1 h2 hc hp]

/-! ## The stages of a fare -/

/-- R102: the current generation unless only the previous one has the stamp's revision. -/
theorem pricedUnder_fst (g : Setup) (revision : Nat) :
    (pricedUnder g revision).1 =
      if revision = g.current.revision then g.current
      else if revision = g.previous.revision then g.previous else g.current := by
  unfold pricedUnder; split_ifs <;> rfl

theorem pricedUnder_fallback_iff (g : Setup) (revision : Nat) :
    (pricedUnder g revision).2 = true ↔ revision ≠ g.current.revision ∧ revision ≠ g.previous.revision := by
  unfold pricedUnder; split_ifs <;> simp_all

section
variable (start finish : Nat)

/-- R103 in plain numbers. -/
theorem duration_eq :
    duration start finish =
      if finish < start then (0, true, false)
      else if finish - start ≤ 43200 then (finish - start, false, false) else (43200, false, true) := rfl

/-- R103: the minutes between, 0 backwards and 43,200 at most. -/
theorem duration_fst : (duration start finish).1 = if finish < start then 0 else min (finish - start) 43200 := by
  rw [duration_eq]; split_ifs <;> simp only <;> omega

theorem duration_le : (duration start finish).1 ≤ 43200 := by
  rw [duration_fst]; split_ifs <;> omega

theorem duration_clock_iff : (duration start finish).2.1 = true ↔ finish < start := by
  rw [duration_eq]; split_ifs <;> simp <;> omega

theorem duration_overlong_iff : (duration start finish).2.2 = true ↔ start + 43200 < finish := by
  rw [duration_eq]; split_ifs <;> simp <;> omega

end

/-- R104: at most 30 whole days and a remainder below a day. -/
theorem day_split {D : Nat} (h : D ≤ 43200) : D / 1440 ≤ 30 ∧ D % 1440 ≤ 1439 ∧ D % 1440 + 1440 * (D / 1440) = D := by
  omega

theorem unitPrice_eq (p : PlanFields) (kind : BikeKind) : unitPrice p kind = if kind = .ebike then p.P + p.E else p.P := by
  cases kind <;> rfl

theorem capped_eq (p : PlanFields) (x : Money) : capped p x = if p.C = 0 ∨ x < p.C then x else p.C := by
  unfold capped
  by_cases uncapped : p.C = 0
  · simp [uncapped]
  · simp [uncapped, min_def_lt]

/-- R105: the block count is the least number of blocks that covers the span. -/
theorem blocks_le_iff {p : PlanFields} (h : 1 ≤ p.B) (m k : Nat) : blocks p m ≤ k ↔ m ≤ k * p.B := by
  rw [Nat.mul_comm]
  exact ceilDiv_le_iff_le_mul h

/-- R105 to R107 with the remainder of the day division written as such. -/
theorem grossExact_eq (p : PlanFields) (U : Money) (D : Nat) :
    grossExact p U D =
      if D / 1440 = 0 then capped p (blocks p (D % 1440 - p.F) * U)
      else capped p (blocks p (1440 - p.F) * U) + (D / 1440 - 1) * capped p (blocks p 1440 * U) +
        capped p (blocks p (D % 1440) * U) := by
  have remainder : D - 1440 * (D / 1440) = D % 1440 := by omega
  simp only [grossExact, Config.day, remainder]

theorem fareCeiling_min (G : Money) : min G Config.fareCeiling = if 1000000 < G then 1000000 else G := by
  rw [min_comm]
  exact min_def_lt Config.fareCeiling G

theorem creditFor_eq (p : PlanFields) (fill : FillState) (G : Money) :
    creditFor p fill G = if fill = .deficit then (if p.K < G then p.K else G) else 0 := by
  rw [creditFor, min_def_lt]

theorem creditFor_le (p : PlanFields) (fill : FillState) (G : Money) : creditFor p fill G ≤ G := by
  unfold creditFor; split
  · exact min_le_right p.K G
  · exact Nat.zero_le G

/-- Settles O54: the block count is `blocks`, the cap `capped`, and each stage has its equation above. -/
theorem fareFollowsItsStages : Obligations.FareFollowsItsStages := by
  intro g x kind finish fill gen plan D U n r fare flags hB _
  have hgen : (pricedUnder g x.revision).1 = gen := pricedUnder_fst g x.revision
  have hplan : (pricedUnder g x.revision).1.plan x.plan = plan := by rw [hgen]; rfl
  have hD : (duration x.start finish).1 = D := duration_fst x.start finish
  have hU : unitPrice plan kind = U := unitPrice_eq plan kind
  have limit : D ≤ 43200 := hD ▸ duration_le x.start finish
  refine ⟨day_split limit, blocks plan, capped plan, blocks_le_iff hB, capped_eq plan, ?_⟩
  intro first later G
  have hG : grossExact plan U D = G := grossExact_eq plan U D
  have hgross : fare.gross = min G Config.fareCeiling := by
    rw [← hG, ← hU, ← hD, ← hplan]; rfl
  have hcredit : fare.credit = creditFor plan fill fare.gross := by rw [← hplan]; rfl
  have hnet : fare.net = fare.gross - fare.credit := rfl
  refine ⟨hD, congrArg Generation.revision hgen, ?_, ?_, ?_, ?_, ?_, ?_, ?_, ?_, rfl, rfl, rfl⟩
  · rw [hgross, fareCeiling_min]
  · rw [hcredit, creditFor_eq]
  · rw [hnet, hcredit]
    exact Nat.sub_add_cancel (creditFor_le plan fill fare.gross)
  · exact duration_clock_iff x.start finish
  · exact duration_overlong_iff x.start finish
  · have ceiling : flags.ceiling = decide (1000000 < G) := by rw [← hG, ← hU, ← hD, ← hplan]; rfl
    rw [ceiling, decide_eq_true_iff]
  · exact pricedUnder_fallback_iff g x.revision
  · have eligible : flags.eligible = decide (D ≤ plan.W) := by rw [← hD, ← hplan]; rfl
    rw [eligible, decide_eq_true_iff]

end Sys2Proof.Machine
end
